-- ==== Sys2Proof/Word.lean ====
section
/-! DEFINITION. The bit-vector types of the CHIP-8 core (spec/00_scope.md R6, R8, R9: all values are unsigned). -/

namespace Sys2Proof

/-- A 4-bit slice of an instruction word: a row count `n`, a key number, a fixed digit (R8, R12). -/
abbrev Nibble := BitVec 4

/-- A register number, `x` or `y`, 0..15 (R72). -/
abbrev Reg := BitVec 4

/-- A general register, a timer, an immediate `kk` or a memory byte (R20, R25, R30, R72). -/
abbrev Byte := BitVec 8

/-- A 12-bit address of the 4096-byte memory, and the immediate `nnn` (R50, R72). -/
abbrev Addr := BitVec 12

/-- The index register, the program counter, a stack slot, an instruction word (R22, R23, R24, R70). -/
abbrev Word := BitVec 16

end Sys2Proof
end

