-- ==== Sys2Proof/Config.lean ====
section
/-! DEFINITION. What the implementation fixes (spec/00_scope.md R6) and the model's one free value (R7).

The parameter `FONT` of R7 is the type `Sys2Proof.Machine.Font` in Machine/Font.lean: the reset takes it as an argument.
`STEP_HZ` has no definition: no rule depends on it (R262).
`RUN_END` is `Sys2Proof.Machine.State.runEnded` in Safety.lean (R101). -/

namespace Sys2Proof

/-- `PROG_BASE` (R6): the address `load` writes from, and the reset value of PC (R34, R241). -/
abbrev Config.progBase : Nat := 0x200

/-- `MEM_SIZE` (R6): bytes of memory. -/
abbrev Config.memSize : Nat := 4096

/-- `ROM_MAX` (R6): the longest byte sequence `load` accepts. -/
abbrev Config.romMax : Nat := 3584

/-- `FONT_BASE` (R6): the address of the first font byte. -/
abbrev Config.fontBase : Nat := 0x000

/-- The number of font bytes, `FONT_GLYPHS` times `FONT_STRIDE` (R6). -/
abbrev Config.fontSize : Nat := 80

/-- `rand` (R7, R39, R143; notes/assumptions/3): the byte the environment supplies to the `k`-th `Cxkk`.
It has no body, so nothing is known of it but that it is a byte: a claim holds for every sequence of draws. -/
opaque Config.rand : Nat → Byte

end Sys2Proof
end

