-- ==== Sys2Proof/Machine/Font.lean ====
section
/-! DEFINITION. The parameter `FONT` and its default (spec/00_scope.md R7, spec/10_state.md R33). -/

namespace Sys2Proof.Machine

/-- `FONT` (R7): the 80 bytes at 0x000 to 0x04F after reset, of which the first alone is fixed. A definition that needs the
font takes one as an argument, and a statement about reset is for every one of them. -/
structure Font where
  /-- The bytes, five a digit, top row first (R33). -/
  bytes : List Byte
  /-- There are `FONT_GLYPHS` times `FONT_STRIDE` of them (R6). -/
  length_bytes : bytes.length = Config.fontSize
  /-- `FONT[0] = 0xF0` (R7). -/
  first_byte : bytes[0]? = some 0xF0
  deriving DecidableEq, Repr

/-- The default table of R33, five bytes a digit, top row first. Only byte 0 (0xF0) is the source document's; the other 79
are the spec's default from general knowledge (PRESUMED, unsafe; notes/assumptions/1). -/
def fontTable : List Byte :=
  [0xF0, 0x90, 0x90, 0x90, 0xF0] ++  -- 0
  [0x20, 0x60, 0x20, 0x20, 0x70] ++  -- 1
  [0xF0, 0x10, 0xF0, 0x80, 0xF0] ++  -- 2
  [0xF0, 0x10, 0xF0, 0x10, 0xF0] ++  -- 3
  [0x90, 0x90, 0xF0, 0x10, 0x10] ++  -- 4
  [0xF0, 0x80, 0xF0, 0x10, 0xF0] ++  -- 5
  [0xF0, 0x80, 0xF0, 0x90, 0xF0] ++  -- 6
  [0xF0, 0x10, 0x20, 0x40, 0x40] ++  -- 7
  [0xF0, 0x90, 0xF0, 0x90, 0xF0] ++  -- 8
  [0xF0, 0x90, 0xF0, 0x10, 0xF0] ++  -- 9
  [0xF0, 0x90, 0xF0, 0x90, 0x90] ++  -- A
  [0xE0, 0x90, 0xE0, 0x90, 0xE0] ++  -- B
  [0xF0, 0x80, 0x80, 0x80, 0xF0] ++  -- C
  [0xE0, 0x90, 0x90, 0x90, 0xE0] ++  -- D
  [0xF0, 0x80, 0xF0, 0x80, 0xF0] ++  -- E
  [0xF0, 0x80, 0xF0, 0x80, 0x80]     -- F

/-- The default of the parameter `FONT` (R7, R33). -/
def Font.default : Font := ⟨fontTable, rfl, rfl⟩

end Sys2Proof.Machine
end

