-- ==== Sys2Proof/Syntax.lean ====
section
/-! DEFINITION. The instructions: one constructor for each row of spec/opcode_table.json, in the table's order,
with the row's fields as operands (spec/30_encoding.md R71, R72, R74). -/

namespace Sys2Proof

/-- An instruction of the core. A docstring gives the row's pattern and the rule of its effect. -/
inductive Instr where
  /-- `00E0` (R171) -/
  | cls
  /-- `00EE` (R110) -/
  | ret
  /-- `0nnn`, the legacy machine-call form, an unknown opcode (R97) -/
  | sys (nnn : Addr)
  /-- `1nnn` (R111) -/
  | jp (nnn : Addr)
  /-- `2nnn` (R112) -/
  | call (nnn : Addr)
  /-- `3xkk` (R114) -/
  | seVxKk (x : Reg) (kk : Byte)
  /-- `4xkk` (R115) -/
  | sneVxKk (x : Reg) (kk : Byte)
  /-- `5xy0` (R116) -/
  | seVxVy (x y : Reg)
  /-- `6xkk` (R130) -/
  | ldVxKk (x : Reg) (kk : Byte)
  /-- `7xkk` (R131) -/
  | addVxKk (x : Reg) (kk : Byte)
  /-- `8xy0` (R132) -/
  | ldVxVy (x y : Reg)
  /-- `8xy1` (R133) -/
  | orVxVy (x y : Reg)
  /-- `8xy2` (R134) -/
  | andVxVy (x y : Reg)
  /-- `8xy3` (R135) -/
  | xorVxVy (x y : Reg)
  /-- `8xy4` (R136) -/
  | addVxVy (x y : Reg)
  /-- `8xy5` (R137) -/
  | sub (x y : Reg)
  /-- `8xy6` (R138); `y` is decoded and ignored (R75) -/
  | shr (x y : Reg)
  /-- `8xy7` (R139) -/
  | subn (x y : Reg)
  /-- `8xyE` (R140); `y` is decoded and ignored (R75) -/
  | shl (x y : Reg)
  /-- `9xy0` (R117) -/
  | sneVxVy (x y : Reg)
  /-- `Annn` (R150) -/
  | ldINnn (nnn : Addr)
  /-- `Bnnn` (R113) -/
  | jpV0 (nnn : Addr)
  /-- `Cxkk` (R143) -/
  | rnd (x : Reg) (kk : Byte)
  /-- `Dxyn` (R172) -/
  | drw (x y : Reg) (n : Nibble)
  /-- `Ex9E` (R190) -/
  | skp (x : Reg)
  /-- `ExA1` (R191) -/
  | sknp (x : Reg)
  /-- `Fx07` (R194) -/
  | ldVxDt (x : Reg)
  /-- `Fx0A` (R193) -/
  | ldVxK (x : Reg)
  /-- `Fx15` (R195) -/
  | ldDtVx (x : Reg)
  /-- `Fx18` (R196) -/
  | ldStVx (x : Reg)
  /-- `Fx1E` (R151) -/
  | addIVx (x : Reg)
  /-- `Fx29` (R152) -/
  | ldFVx (x : Reg)
  /-- `Fx33` (R153) -/
  | ldBVx (x : Reg)
  /-- `Fx55` (R154) -/
  | ldMiVx (x : Reg)
  /-- `Fx65` (R155) -/
  | ldVxMi (x : Reg)
  deriving DecidableEq, Repr

end Sys2Proof
end

