-- ==== Sys2Proof/Decode.lean ====
section
/-! DEFINITION. The decoder, total on words and on bytes, the encoder written from the same formats, and the opcode map
of the spec as a table (spec/30_encoding.md R70 to R78, spec/20_memory.md R52). -/

namespace Sys2Proof

/-- Why bytes are not an instruction with an effect: the names the decoder rejects by. -/
inductive DecodeReject where
  /-- The word matches no row of the opcode map (R76): `decode` yields `Unknown`. -/
  | unknown (op : Word)
  /-- Fewer than the two bytes of an instruction were given (R70); a fetch never does this. -/
  | truncated (count : Nat)
  deriving DecidableEq, Repr

/-! ### The fields of an instruction word (R71, R72) -/

/-- The primary group, `op[15:12]`. -/
def opGroup (op : Word) : Nibble := op.extractLsb' 12 4

/-- `x = op[11:8]`. -/
def opX (op : Word) : Reg := op.extractLsb' 8 4

/-- `y = op[7:4]`. -/
def opY (op : Word) : Reg := op.extractLsb' 4 4

/-- `n = op[3:0]`, and the function digit of the format XYF. -/
def opN (op : Word) : Nibble := op.extractLsb' 0 4

/-- `kk = op[7:0]`, and the function byte of the format XFF. -/
def opKk (op : Word) : Byte := op.extractLsb' 0 8

/-- `nnn = op[11:0]`. -/
def opNnn (op : Word) : Addr := op.extractLsb' 0 12

/-! ### The formats, assembled (R71) -/

/-- Format NNN. -/
def wordNNN (group : Nibble) (nnn : Addr) : Word := group ++ nnn

/-- Formats XKK and XFF: in XFF the low byte is the fixed function. -/
def wordXKK (group : Nibble) (x : Reg) (kk : Byte) : Word := group ++ x ++ kk

/-- Formats XYN and XYF: in XYF the low nibble is the fixed function. -/
def wordXYN (group : Nibble) (x y : Reg) (n : Nibble) : Word := group ++ x ++ y ++ n

/-- Big-endian assembly of an instruction word: the byte at the lower address is the high byte (R52). -/
def wordOfBytes (hi lo : Byte) : Word := hi ++ lo

/-- The byte of an instruction word that lies at the lower address (R52). -/
def highByte (op : Word) : Byte := op.extractLsb' 8 8

/-- The byte of an instruction word that lies at the higher address (R52). -/
def lowByte (op : Word) : Byte := op.extractLsb' 0 8

/-! ### Decode -/

/-- Group 0 compares the whole word; every other word of the group is `SYS` (R73, R74). -/
def decodeGroup0 (op : Word) : Except DecodeReject Instr :=
  if op = 0x00E0#16 then .ok .cls
  else if op = 0x00EE#16 then .ok .ret
  else .ok (.sys (opNnn op))

/-- Group 8 dispatches on the low nibble (R73). -/
def decodeGroup8 (op : Word) : Except DecodeReject Instr :=
  let x := opX op
  let y := opY op
  if opN op = 0x0#4 then .ok (.ldVxVy x y)
  else if opN op = 0x1#4 then .ok (.orVxVy x y)
  else if opN op = 0x2#4 then .ok (.andVxVy x y)
  else if opN op = 0x3#4 then .ok (.xorVxVy x y)
  else if opN op = 0x4#4 then .ok (.addVxVy x y)
  else if opN op = 0x5#4 then .ok (.sub x y)
  else if opN op = 0x6#4 then .ok (.shr x y)
  else if opN op = 0x7#4 then .ok (.subn x y)
  else if opN op = 0xE#4 then .ok (.shl x y)
  else .error (.unknown op)

/-- Group E dispatches on the low byte (R73). -/
def decodeGroupE (op : Word) : Except DecodeReject Instr :=
  if opKk op = 0x9E#8 then .ok (.skp (opX op))
  else if opKk op = 0xA1#8 then .ok (.sknp (opX op))
  else .error (.unknown op)

/-- Group F dispatches on the low byte (R73). -/
def decodeGroupF (op : Word) : Except DecodeReject Instr :=
  let x := opX op
  if opKk op = 0x07#8 then .ok (.ldVxDt x)
  else if opKk op = 0x0A#8 then .ok (.ldVxK x)
  else if opKk op = 0x15#8 then .ok (.ldDtVx x)
  else if opKk op = 0x18#8 then .ok (.ldStVx x)
  else if opKk op = 0x1E#8 then .ok (.addIVx x)
  else if opKk op = 0x29#8 then .ok (.ldFVx x)
  else if opKk op = 0x33#8 then .ok (.ldBVx x)
  else if opKk op = 0x55#8 then .ok (.ldMiVx x)
  else if opKk op = 0x65#8 then .ok (.ldVxMi x)
  else .error (.unknown op)

/-- The pure decode of R73: the top nibble selects the group, groups 5 and 9 require a low nibble of 0, groups 0, 8, E
and F have a second level. It reads nothing but the word and ends with a default arm that yields `Unknown` (R78). -/
def decodeWord (op : Word) : Except DecodeReject Instr :=
  if opGroup op = 0x0#4 then decodeGroup0 op
  else if opGroup op = 0x1#4 then .ok (.jp (opNnn op))
  else if opGroup op = 0x2#4 then .ok (.call (opNnn op))
  else if opGroup op = 0x3#4 then .ok (.seVxKk (opX op) (opKk op))
  else if opGroup op = 0x4#4 then .ok (.sneVxKk (opX op) (opKk op))
  else if opGroup op = 0x5#4 ∧ opN op = 0x0#4 then .ok (.seVxVy (opX op) (opY op))
  else if opGroup op = 0x6#4 then .ok (.ldVxKk (opX op) (opKk op))
  else if opGroup op = 0x7#4 then .ok (.addVxKk (opX op) (opKk op))
  else if opGroup op = 0x8#4 then decodeGroup8 op
  else if opGroup op = 0x9#4 ∧ opN op = 0x0#4 then .ok (.sneVxVy (opX op) (opY op))
  else if opGroup op = 0xA#4 then .ok (.ldINnn (opNnn op))
  else if opGroup op = 0xB#4 then .ok (.jpV0 (opNnn op))
  else if opGroup op = 0xC#4 then .ok (.rnd (opX op) (opKk op))
  else if opGroup op = 0xD#4 then .ok (.drw (opX op) (opY op) (opN op))
  else if opGroup op = 0xE#4 then decodeGroupE op
  else if opGroup op = 0xF#4 then decodeGroupF op
  else .error (.unknown op)

/-- Decode of a byte stream: exactly two bytes are consumed (R70); the rest is returned. -/
def decode : List Byte → Except DecodeReject (Instr × List Byte)
  | hi :: lo :: rest =>
    match decodeWord (wordOfBytes hi lo) with
    | .ok ins => .ok (ins, rest)
    | .error e => .error e
  | bytes => .error (.truncated bytes.length)

/-- An unknown opcode (R76): a word that matches no row other than `SYS`. Both kinds are reported (R96, R97). -/
def isUnknownOpcode (op : Word) : Bool :=
  match decodeWord op with
  | .error _ => true
  | .ok (.sys _) => true
  | .ok _ => false

/-! ### Encode -/

/-- The word of an instruction, from the pattern of its row (R71, R74). -/
def encode : Instr → Word
  | .cls => 0x00E0#16
  | .ret => 0x00EE#16
  | .sys nnn => wordNNN 0x0 nnn
  | .jp nnn => wordNNN 0x1 nnn
  | .call nnn => wordNNN 0x2 nnn
  | .seVxKk x kk => wordXKK 0x3 x kk
  | .sneVxKk x kk => wordXKK 0x4 x kk
  | .seVxVy x y => wordXYN 0x5 x y 0x0
  | .ldVxKk x kk => wordXKK 0x6 x kk
  | .addVxKk x kk => wordXKK 0x7 x kk
  | .ldVxVy x y => wordXYN 0x8 x y 0x0
  | .orVxVy x y => wordXYN 0x8 x y 0x1
  | .andVxVy x y => wordXYN 0x8 x y 0x2
  | .xorVxVy x y => wordXYN 0x8 x y 0x3
  | .addVxVy x y => wordXYN 0x8 x y 0x4
  | .sub x y => wordXYN 0x8 x y 0x5
  | .shr x y => wordXYN 0x8 x y 0x6
  | .subn x y => wordXYN 0x8 x y 0x7
  | .shl x y => wordXYN 0x8 x y 0xE
  | .sneVxVy x y => wordXYN 0x9 x y 0x0
  | .ldINnn nnn => wordNNN 0xA nnn
  | .jpV0 nnn => wordNNN 0xB nnn
  | .rnd x kk => wordXKK 0xC x kk
  | .drw x y n => wordXYN 0xD x y n
  | .skp x => wordXKK 0xE x 0x9E
  | .sknp x => wordXKK 0xE x 0xA1
  | .ldVxDt x => wordXKK 0xF x 0x07
  | .ldVxK x => wordXKK 0xF x 0x0A
  | .ldDtVx x => wordXKK 0xF x 0x15
  | .ldStVx x => wordXKK 0xF x 0x18
  | .addIVx x => wordXKK 0xF x 0x1E
  | .ldFVx x => wordXKK 0xF x 0x29
  | .ldBVx x => wordXKK 0xF x 0x33
  | .ldMiVx x => wordXKK 0xF x 0x55
  | .ldVxMi x => wordXKK 0xF x 0x65

/-! ### The opcode map as the spec tabulates it (R74) -/

/-- A row of R74: a word is the instruction of the row when `op and mask = value`. -/
structure OpcodeRow where
  mnemonic : String
  mask : Word
  value : Word
  deriving DecidableEq, Repr

/-- The row of the opcode map an instruction belongs to; the mnemonics are spec/opcode_table.json's. -/
def Instr.row : Instr → OpcodeRow
  | .cls => ⟨"CLS", 0xFFFF, 0x00E0⟩
  | .ret => ⟨"RET", 0xFFFF, 0x00EE⟩
  | .sys _ => ⟨"SYS", 0xF000, 0x0000⟩
  | .jp _ => ⟨"JP", 0xF000, 0x1000⟩
  | .call _ => ⟨"CALL", 0xF000, 0x2000⟩
  | .seVxKk _ _ => ⟨"SE_VX_KK", 0xF000, 0x3000⟩
  | .sneVxKk _ _ => ⟨"SNE_VX_KK", 0xF000, 0x4000⟩
  | .seVxVy _ _ => ⟨"SE_VX_VY", 0xF00F, 0x5000⟩
  | .ldVxKk _ _ => ⟨"LD_VX_KK", 0xF000, 0x6000⟩
  | .addVxKk _ _ => ⟨"ADD_VX_KK", 0xF000, 0x7000⟩
  | .ldVxVy _ _ => ⟨"LD_VX_VY", 0xF00F, 0x8000⟩
  | .orVxVy _ _ => ⟨"OR", 0xF00F, 0x8001⟩
  | .andVxVy _ _ => ⟨"AND", 0xF00F, 0x8002⟩
  | .xorVxVy _ _ => ⟨"XOR", 0xF00F, 0x8003⟩
  | .addVxVy _ _ => ⟨"ADD_VX_VY", 0xF00F, 0x8004⟩
  | .sub _ _ => ⟨"SUB", 0xF00F, 0x8005⟩
  | .shr _ _ => ⟨"SHR", 0xF00F, 0x8006⟩
  | .subn _ _ => ⟨"SUBN", 0xF00F, 0x8007⟩
  | .shl _ _ => ⟨"SHL", 0xF00F, 0x800E⟩
  | .sneVxVy _ _ => ⟨"SNE_VX_VY", 0xF00F, 0x9000⟩
  | .ldINnn _ => ⟨"LD_I_NNN", 0xF000, 0xA000⟩
  | .jpV0 _ => ⟨"JP_V0", 0xF000, 0xB000⟩
  | .rnd _ _ => ⟨"RND", 0xF000, 0xC000⟩
  | .drw _ _ _ => ⟨"DRW", 0xF000, 0xD000⟩
  | .skp _ => ⟨"SKP", 0xF0FF, 0xE09E⟩
  | .sknp _ => ⟨"SKNP", 0xF0FF, 0xE0A1⟩
  | .ldVxDt _ => ⟨"LD_VX_DT", 0xF0FF, 0xF007⟩
  | .ldVxK _ => ⟨"LD_VX_K", 0xF0FF, 0xF00A⟩
  | .ldDtVx _ => ⟨"LD_DT_VX", 0xF0FF, 0xF015⟩
  | .ldStVx _ => ⟨"LD_ST_VX", 0xF0FF, 0xF018⟩
  | .addIVx _ => ⟨"ADD_I_VX", 0xF0FF, 0xF01E⟩
  | .ldFVx _ => ⟨"LD_F_VX", 0xF0FF, 0xF029⟩
  | .ldBVx _ => ⟨"LD_B_VX", 0xF0FF, 0xF033⟩
  | .ldMiVx _ => ⟨"LD_MI_VX", 0xF0FF, 0xF055⟩
  | .ldVxMi _ => ⟨"LD_VX_MI", 0xF0FF, 0xF065⟩

/-- Row `r` claims the word `op` (R74). -/
abbrev OpcodeRow.claims (r : OpcodeRow) (op : Word) : Prop := op &&& r.mask = r.value

/-! ### The host's reading of the opcode table -/

/-- The two bytes of a word as the hardware stores them, the first at the lower address (R52). -/
def bytesOfWord (op : Word) : List Byte := [highByte op, lowByte op]

/-- What the decoder reads from an instruction whose low `nbits` bits are those of `w` and whose other bits are 0. Every
instruction is 16 bits (R70), so a longer one is none. -/
def decodeTableWord (nbits w : Nat) : Option Instr :=
  if 16 < nbits then none
  else
    match decode (bytesOfWord (BitVec.ofNat 16 (w % 2 ^ nbits))) with
    | .ok (ins, _) => some ins
    | .error _ => none

end Sys2Proof
end

