-- ==== Sys2Proof/Machine/State.lean ====
section
/-! DEFINITION. The state of the core as plain data (spec/10_state.md R20 to R30), its value after reset (R33, R34), and
the closed types of outcomes. -/

namespace Sys2Proof.Machine

/-- The five values of the fault latch's `FAULT` field (R29). -/
inductive FaultCause where
  /-- Code 0: no fault. -/
  | none
  /-- Code 1: `pc0 >= 0x0FFF` at the start of a step (R91, R215). -/
  | addressOverflow
  /-- Code 2: `2nnn` with `SP = 16` (R216). -/
  | stackOverflow
  /-- Code 3: `00EE` with `SP = 0` (R217). -/
  | stackUnderflow
  /-- Code 4: `Ex9E` or `ExA1` with `V[x] > 15` (R227). -/
  | keyIndexRange
  deriving DecidableEq, Repr

/-- The 64 by 32 one-bit framebuffer, `fb[row][col]`; `true` is a lit pixel (R27). -/
abbrev Framebuffer := Vector (Vector Bool 64) 32

/-- Memory (R30, R50): the bytes that differ from what an unlisted address reads as (`Memory.unlisted`), by address, strictly
rising. `Memory.wf` is that form. -/
abbrev Memory := List Host.Cell

/-- Everything the spec gives the core (R20 to R30), and one field of the model's own, `draws`. -/
structure State where
  /-- `V[0]` to `V[15]` (R20); `V[15]` is VF, the flag register (R21). -/
  v : Vector Byte 16
  /-- The index register I (R22). -/
  index : Word
  /-- The program counter (R23): between steps the address of the next instruction, in the execute phase `pc0 + 2`. -/
  pc : Word
  /-- The stack pointer `SP`, 0..16 (R24). -/
  sp : Fin 17
  /-- The call stack's slots (R24). -/
  stack : Vector Word 16
  /-- The delay timer (R25). -/
  dt : Byte
  /-- The sound timer (R25). -/
  st : Byte
  /-- The keyboard flags, `true` for pressed (R26). -/
  keys : Vector Bool 16
  /-- The framebuffer (R27). -/
  fb : Framebuffer
  /-- The framebuffer dirty flag (R28). -/
  dirty : Bool
  /-- `FAULT` of the fault latch (R29). -/
  fault : FaultCause
  /-- `FAULT_PC` of the fault latch (R29). -/
  faultPc : Word
  /-- `FAULT_OP` of the fault latch (R29). -/
  faultOp : Word
  /-- `MEM` (R30). -/
  mem : Memory
  /-- The model's own counter of `rand` bytes drawn so far, not the spec's (R39; notes/assumptions/3). -/
  draws : Nat
  deriving DecidableEq, Repr

/-- The core right after reset (R34) with the default of the parameter `FONT`: no memory byte is listed, so memory reads as
R33 says (`Memory.unlisted`). `State.resetWith` is the same for any `FONT`. -/
def State.reset : State where
  v := Vector.replicate 16 0#8
  index := 0x0000#16
  pc := 0x0200#16
  sp := 0
  stack := Vector.replicate 16 0#16
  dt := 0#8
  st := 0#8
  keys := Vector.replicate 16 false
  fb := Vector.replicate 32 (Vector.replicate 64 false)
  dirty := false
  fault := .none
  faultPc := 0#16
  faultOp := 0#16
  mem := []
  draws := 0

/-- Reasons a step could stop without a next state: there is none. The four fatal conditions of R210 have an entry the spec
describes (the sticky fault latch, R213, R214), so raising one is a next state with the latch set, and a step of a
latched core is a next state with nothing changed. No instruction and no access of this core leaves the spec without
an effect. -/
inductive Fault
  deriving DecidableEq, Repr

/-- Reasons a step could be refused. -/
inductive Refusal where
  /-- Raised by an arm of `exec` that has no meaning yet; no arm does, so no step of this model is refused. Safe. -/
  | notModelled (mnemonic : String)
  deriving DecidableEq, Repr

/-- What a step returns to the host (R43). -/
inductive StepResult where
  /-- The step completed and no unknown opcode was met. -/
  | ok
  /-- The step completed and the word `op` was an unknown opcode (R218). -/
  | reported (op : Word)
  /-- The step raised `cause` (R213), or the latch already held it (R214). -/
  | faulted (cause : FaultCause)
  deriving DecidableEq, Repr

/-- The commands of the host, each performed between steps (R244). The reads of the framebuffer, of `DIRTY` and of the
latch have no effect on the core (R41) and are the fields of `State`. -/
inductive Command where
  /-- R240 -/
  | reset
  /-- R245 -/
  | load (bytes : List Byte)
  /-- R40; the port is 4 bits wide -/
  | keyDown (k : Nibble)
  /-- R40 -/
  | keyUp (k : Nibble)
  /-- R41 -/
  | clearDirty
  /-- R38 -/
  | step
  deriving DecidableEq, Repr

/-- What a command of the host does. -/
inductive CommandOutcome where
  /-- The command was performed. -/
  | done (s : State)
  /-- `load` of more than `ROM_MAX` bytes: a failure that writes nothing (R219, R245). -/
  | romTooLarge
  /-- The spec defines no effect here: a `load` in a state other than a reset's (R245; notes/assumptions/6). Safe. -/
  | notDefined
  deriving DecidableEq, Repr

end Sys2Proof.Machine
end

