-- ==== Sys2Proof/Machine/Ops.lean ====
section
/-! DEFINITION. The named operations over memory, registers, the call stack, the latch and the cycle
(spec/20_memory.md R50 to R57, spec/40_step_cycle.md R90 to R99, spec/60_exceptions.md R213). -/

namespace Sys2Proof.Machine

/-! ### Memory (R30, R50) -/

/-- What an address that memory does not list reads as: its value after a reset with the default `FONT`, a byte of the
table below 0x050 and 0 above (R33). Memory after a reset with another `FONT` lists the bytes that differ
(`State.resetWith`), so that this choice of a base line excludes no contents of memory (notes/assumptions/2). -/
def Memory.unlisted (a : Nat) : Byte := if a < Config.fontSize then fontTable.getD a 0 else 0

/-- One byte of memory. -/
def Memory.read : Memory → Nat → Byte
  | [], a => Memory.unlisted a
  | (k, b) :: m, a => if k = a then b else Memory.read m a

/-- Store one byte, keeping the canonical form: an entry that would equal the unlisted value is not listed. -/
def Memory.write : Memory → Nat → Byte → Memory
  | [], a, b => if b = Memory.unlisted a then [] else [(a, b)]
  | (k, c) :: m, a, b =>
    if a < k then
      if b = Memory.unlisted a then (k, c) :: m else (a, b) :: (k, c) :: m
    else if a = k then
      if b = Memory.unlisted a then m else (a, b) :: m
    else (k, c) :: Memory.write m a b

/-- The canonical form from address `lo` on: strictly rising, inside the 4096 bytes, no entry equal to the unlisted value. -/
def Memory.wfFrom : Nat → Memory → Bool
  | _, [] => true
  | lo, (a, b) :: m =>
    decide (lo ≤ a) && decide (a < Config.memSize) && (b != Memory.unlisted a) && Memory.wfFrom (a + 1) m

/-- The canonical form of memory. -/
def Memory.wf (m : Memory) : Bool := Memory.wfFrom 0 m

/-- Store a byte sequence at consecutive addresses from `a` (R245). -/
def Memory.writeList : Memory → Nat → List Byte → Memory
  | m, _, [] => m
  | m, a, b :: bs => Memory.writeList (Memory.write m a b) (a + 1) bs

/-- Memory after reset with the parameter `FONT` (R33): the font from `FONT_BASE` on, every other byte 0. -/
def Memory.withFont (font : Font) : Memory := Memory.writeList State.reset.mem Config.fontBase font.bytes

/-- The core right after reset with the parameter `FONT` (R7, R33, R34). `State.reset` is the one with the default. -/
def State.resetWith (font : Font) : State := { State.reset with mem := Memory.withFont font }

/-- `MemRead(addr, 1)` (R10, R55). -/
def State.readByte (s : State) (a : Addr) : Byte := s.mem.read a.toNat

/-- `MemWrite(addr, 1, v)` (R10, R55). -/
def State.writeByte (s : State) (a : Addr) (b : Byte) : State := { s with mem := s.mem.write a.toNat b }

/-! ### Registers and timers (R10, R20, R22, R23, R25) -/

/-- `V[r]`. -/
def State.getV (s : State) (r : Reg) : Byte := s.v[r.toNat]'r.isLt

/-- `V[r] <- b`. -/
def State.setV (s : State) (r : Reg) (b : Byte) : State := { s with v := s.v.set r.toNat b r.isLt }

/-- `I <- w`. -/
def State.setIndex (s : State) (w : Word) : State := { s with index := w }

/-- `pc <- target`. -/
def State.setPc (s : State) (target : Word) : State := { s with pc := target }

/-- `DT <- b`. -/
def State.setDt (s : State) (b : Byte) : State := { s with dt := b }

/-- `ST <- b`. -/
def State.setSt (s : State) (b : Byte) : State := { s with st := b }

/-! ### The framebuffer and its dirty flag (R27, R28) -/

/-- `FB[row][col]`. -/
def Framebuffer.pixel (fb : Framebuffer) (row : Fin 32) (col : Fin 64) : Bool := fb[row][col]

/-- `FB[row][col] <- p`. -/
def Framebuffer.setPixel (fb : Framebuffer) (row : Fin 32) (col : Fin 64) (p : Bool) : Framebuffer :=
  fb.set row (fb[row].set col p)

/-- All 2048 pixels 0 (R171). -/
def Framebuffer.clear : Framebuffer := Vector.replicate 32 (Vector.replicate 64 false)

/-- Replace the picture, and set `DIRTY` if `mutated`; `DIRTY` is never cleared here (R28, R174). -/
def State.setPicture (s : State) (fb : Framebuffer) (mutated : Bool) : State :=
  { s with fb := fb, dirty := s.dirty || mutated }

/-! ### The keyboard flags (R26) -/

/-- `KEYS[k]`. -/
def State.keyPressed (s : State) (k : Nibble) : Bool := s.keys[k.toNat]'k.isLt

/-- `KEYS[k] <- p`; only a command of the host does this (R40). -/
def State.setKey (s : State) (k : Nibble) (p : Bool) : State := { s with keys := s.keys.set k.toNat p k.isLt }

/-! ### The call stack (R24) -/

/-- Push a return address (R112), or `none` when all 16 slots are in use. -/
def State.push? (s : State) (a : Word) : Option State :=
  if h : s.sp.val < 16 then
    some { s with stack := s.stack.set s.sp.val a h, sp := ⟨s.sp.val + 1, by omega⟩ }
  else none

/-- Pop a return address (R110): the address and the state with `SP` one lower, the slot keeping its value; `none` when
the stack is empty. -/
def State.pop? (s : State) : Option (Word × State) :=
  if h : 0 < s.sp.val then
    some (s.stack[s.sp.val - 1]'(by omega), { s with sp := ⟨s.sp.val - 1, by omega⟩ })
  else none

/-! ### The fault latch (R29, R213) -/

/-- The latch as `raise` leaves it, with PC at `pc0`: every write the step made is undone, in practice the advance of PC
alone (R213). No mode changes, nothing is pushed, control goes nowhere. -/
def State.raise (s : State) (cause : FaultCause) (pc0 op : Word) : State :=
  { s with pc := pc0, fault := cause, faultPc := pc0, faultOp := op }

/-- `pc0`, seen from the execute phase, in which PC holds `pc0 + 2` (R23, R93; notes/assumptions/4). -/
def State.pc0 (s : State) : Word := s.pc - 2

/-- `raise` of an instruction `op` in its execute phase: TAKING the fault (R213). -/
def State.raiseInstr (s : State) (cause : FaultCause) (op : Word) : State := s.raise cause s.pc0 op

/-! ### The cycle (R90) -/

/-- The sticky check of R214: the latch holds a fault. -/
def State.latched (s : State) : Bool := s.fault != .none

/-- The fetch guard of R91: no instruction can be fetched at PC. -/
def State.pcOverflows (s : State) : Bool := decide (0x0FFF ≤ s.pc.toNat)

/-- The word at PC, the byte at the lower address high (R52, R92). Called with `pc <= 0x0FFE` only, so that neither
address is reduced (R57). -/
def State.fetchWord (s : State) : Word :=
  wordOfBytes (s.readByte (s.pc.setWidth 12)) (s.readByte ((s.pc + 1).setWidth 12))

/-- `pc <- pc0 + 2`, before decode (R93). -/
def State.advance (s : State) : State := { s with pc := s.pc + 2 }

/-- A skip adds 2 to the already advanced PC when its condition holds (R118). -/
def State.skipIf (s : State) (taken : Bool) : State := { s with pc := if taken then s.pc + 2 else s.pc }

/-- A timer one lower, to a floor of 0 (R99). -/
def timerTick (b : Byte) : Byte := if b = 0 then 0 else b - 1

/-- The decrement of both timers (R99). -/
def State.tick (s : State) : State := { s with dt := timerTick s.dt, st := timerTick s.st }

/-- The post-execute phase: the timers are decremented in a step that did not raise (R99, R213). -/
def State.postExecute (s : State) : State := if s.latched then s else s.tick

/-- The post-execute phase of a step whose execute phase answered a next state. -/
def finish : Host.Outcome State Fault Refusal → Host.Outcome State Fault Refusal
  | .next t => .next t.postExecute
  | .fault r => .fault r
  | .refused r => .refused r

/-- `report Unknown(op)` writes no state (R10, R96, R218); the event is the step's result (`stepResult`). -/
def State.reportUnknown (s : State) (_op : Word) : State := s

/-- The execute phase of a word that is no row of the opcode map (R96): a report and no write. -/
def execUnknown (op : Word) (s : State) : Host.Outcome State Fault Refusal := .next (s.reportUnknown op)

/-! ### Where the host places an instruction for the next step -/

/-- The state with the latch clear and PC where a fetch can happen: what the fetch needs (R90, R91). A state that can
fetch is returned as it is. -/
def State.fetchable (s : State) : State :=
  let t := if s.latched then { s with fault := .none, faultPc := 0, faultOp := 0 } else s
  if s.pcOverflows then t.setPc (BitVec.ofNat 16 Config.progBase) else t

/-- The instruction word at PC replaced by `op`, big-endian (R52). -/
def State.placeWord (s : State) (op : Word) : State :=
  (s.writeByte (s.pc.setWidth 12) (highByte op)).writeByte ((s.pc + 1).setWidth 12) (lowByte op)

end Sys2Proof.Machine
end

