-- ==== Sys2Proof/Machine/Operands.lean ====
section
/-! DEFINITION. The operand forms: zero-extended immediates and registers, the address through I, the registers and
bytes of a load or a store, the decimal digits, and the key an instruction names
(spec/30_encoding.md R72, spec/43_index_memory.md R153 to R156, spec/45_keys_timers.md R190 to R193). -/

namespace Sys2Proof.Machine

/-- `zext_16(nnn)` (R10, R72). -/
def zextAddr (nnn : Addr) : Word := nnn.setWidth 16

/-- `zext_16(v)` of a register (R10). -/
def zextByte (b : Byte) : Word := b.setWidth 16

/-- `EA(off) = (I + off) mod 4096` (R56, R156). -/
def State.ea (s : State) (off : Nat) : Addr := BitVec.ofNat 12 (s.index.toNat + off)

/-- Store `V[0]` to `V[x]` at ascending addresses, `V[0]` lowest (R53, R154). -/
def State.storeRegs (s : State) (x : Reg) : State :=
  (List.range (x.toNat + 1)).foldl (fun t i => t.writeByte (s.ea i) (s.getV (BitVec.ofNat 4 i))) s

/-- Load `V[0]` to `V[x]` from ascending addresses, `V[0]` from the lowest (R53, R155). -/
def State.loadRegs (s : State) (x : Reg) : State :=
  (List.range (x.toNat + 1)).foldl (fun t i => t.setV (BitVec.ofNat 4 i) (s.readByte (s.ea i))) s

/-- The hundreds digit of a byte, 0..2 (R153). -/
def hundreds (b : Byte) : Byte := BitVec.ofNat 8 (b.toNat / 100)

/-- The tens digit of a byte (R153). -/
def tens (b : Byte) : Byte := BitVec.ofNat 8 (b.toNat / 10 % 10)

/-- The ones digit of a byte (R153). -/
def ones (b : Byte) : Byte := BitVec.ofNat 8 (b.toNat % 10)

/-- The address of the glyph of digit `b`, `b * 5`, the whole byte multiplied (R152). -/
def glyphAddr (b : Byte) : Word := zextByte b * 5

/-- The key a register value names, or `none` above 15 (R192). -/
def keyIndex? (b : Byte) : Option Nibble := if 15 < b.toNat then none else some (b.setWidth 4)

/-- The last pressed key of a scan of keys 0 to 15, or `none` (R193). -/
def State.lastPressed (s : State) : Option Nat :=
  (List.range 16).foldl (fun found k => if s.keyPressed (BitVec.ofNat 4 k) then some k else found) none

end Sys2Proof.Machine
end

