-- ==== Sys2Proof/Machine/ControlFlow.lean ====
section
/-! DEFINITION. Control transfer: return, jump, call, indexed jump, register skips (spec/41_control_flow.md). In every
meaning `s.pc` already holds `pc0 + 2` (R93). -/

namespace Sys2Proof.Machine

/-- `00EE` (R110): pop into PC, or raise `StackUnderflow` before any write. -/
def execRet (s : State) : Host.Outcome State Fault Refusal :=
  match s.pop? with
  | none => .next (s.raiseInstr .stackUnderflow (encode .ret))
  | some (target, t) => .next (t.setPc target)

/-- `1nnn` (R111). -/
def execJp (nnn : Addr) (s : State) : Host.Outcome State Fault Refusal :=
  .next (s.setPc (zextAddr nnn))

/-- `2nnn` (R112): push the advanced PC and jump, or raise `StackOverflow` before any write. -/
def execCall (nnn : Addr) (s : State) : Host.Outcome State Fault Refusal :=
  match s.push? s.pc with
  | none => .next (s.raiseInstr .stackOverflow (encode (.call nnn)))
  | some t => .next (t.setPc (zextAddr nnn))

/-- `Bnnn` (R113): the sum is formed at 16 bits and not reduced. -/
def execJpV0 (nnn : Addr) (s : State) : Host.Outcome State Fault Refusal :=
  .next (s.setPc (zextAddr nnn + zextByte (s.getV 0)))

/-- `3xkk` (R114). -/
def execSeVxKk (x : Reg) (kk : Byte) (s : State) : Host.Outcome State Fault Refusal :=
  .next (s.skipIf (s.getV x == kk))

/-- `4xkk` (R115). -/
def execSneVxKk (x : Reg) (kk : Byte) (s : State) : Host.Outcome State Fault Refusal :=
  .next (s.skipIf (s.getV x != kk))

/-- `5xy0` (R116). -/
def execSeVxVy (x y : Reg) (s : State) : Host.Outcome State Fault Refusal :=
  .next (s.skipIf (s.getV x == s.getV y))

/-- `9xy0` (R117). -/
def execSneVxVy (x y : Reg) (s : State) : Host.Outcome State Fault Refusal :=
  .next (s.skipIf (s.getV x != s.getV y))

end Sys2Proof.Machine
end

