-- ==== Sys2Proof/Machine/Flags.lean ====
section
/-! DEFINITION. The flag computations and the two orders of a flag-setting instruction's writes
(spec/10_state.md R21, spec/42_load_alu.md R141, R142). Every flag is computed from the operands as they were before. -/

namespace Sys2Proof.Machine

/-- The flag register VF, `V[0xF]` (R21). -/
abbrev VF : Reg := 0xF

/-- A flag is written to VF as 0 or 1 (R21). -/
def flagByte (flag : Bool) : Byte := if flag then 1 else 0

/-- The unwrapped sum exceeds 255 (R136). -/
def carryOut (a b : Byte) : Bool := decide (255 < a.toNat + b.toNat)

/-- No borrow occurs in `a - b`: `a >= b` (R137, R139). -/
def noBorrow (a b : Byte) : Bool := decide (b.toNat ≤ a.toNat)

/-- The bit a right shift by one discards (R138). -/
def lowBit (a : Byte) : Bool := a.getLsbD 0

/-- The bit a left shift by one discards (R140). -/
def highBit (a : Byte) : Bool := a.getLsbD 7

/-- `VF <- flag`. -/
def State.setFlag (s : State) (flag : Bool) : State := s.setV VF (flagByte flag)

/-- The result to `V[x]` first, the flag to VF second: with `x = 0xF` the flag remains (`8xy4`, `8xy5`, `8xy7`; R142). -/
def State.resultThenFlag (s : State) (x : Reg) (result : Byte) (flag : Bool) : State := (s.setV x result).setFlag flag

/-- The flag to VF first, the result to `V[x]` second: with `x = 0xF` the result remains (`8xy6`, `8xyE`; R142). -/
def State.flagThenResult (s : State) (x : Reg) (flag : Bool) (result : Byte) : State := (s.setFlag flag).setV x result

end Sys2Proof.Machine
end

