-- ==== Sys2Proof/Machine/Display.lean ====
section
/-! DEFINITION. Display: clear screen, sprite blit, dirty flag (spec/44_display.md). -/

namespace Sys2Proof.Machine

/-- `00E0` (R171): every pixel 0, and `DIRTY` set whatever the picture was. -/
def execCls (s : State) : Host.Outcome State Fault Refusal :=
  .next (s.setPicture Framebuffer.clear true)

/-- What a blit has done so far: the picture, a collision seen, a pixel changed (R172). -/
structure Blit where
  fb : Framebuffer
  hit : Bool
  changed : Bool
  deriving DecidableEq, Repr

/-- The framebuffer row of sprite row `r` drawn from `vy` (R170). -/
def spriteRow (vy : Byte) (r : Nat) : Fin 32 := Fin.ofNat 32 (vy.toNat + r)

/-- The framebuffer column of sprite column `b` drawn from `vx` (R170). -/
def spriteCol (vx : Byte) (b : Nat) : Fin 64 := Fin.ofNat 64 (vx.toNat + b)

/-- Sprite column `b` of a sprite byte: the most significant bit is column 0 (R170). -/
def spriteBit (byte : Byte) (b : Nat) : Bool := byte.getLsbD (7 - b)

/-- One pixel of the blit: XOR it on the picture, note a collision and a change (R172). -/
def blitPixel (vx vy byte : Byte) (r : Nat) (acc : Blit) (b : Nat) : Blit :=
  let pixel := spriteBit byte b
  let row := spriteRow vy r
  let col := spriteCol vx b
  let target := acc.fb.pixel row col
  { fb := acc.fb.setPixel row col (target ^^ pixel)
    hit := acc.hit || (pixel && target)
    changed := acc.changed || pixel }

/-- One sprite row, its eight pixels in order (R172). -/
def blitRow (vx vy byte : Byte) (r : Nat) (acc : Blit) : Blit :=
  (List.range 8).foldl (blitPixel vx vy byte r) acc

/-- The blit of `n` rows read from `EA(0)` on, at the latched coordinates (R172). -/
def State.blit (s : State) (vx vy : Byte) (n : Nat) : Blit :=
  (List.range n).foldl (fun acc r => blitRow vx vy (s.readByte (s.ea r)) r acc) ⟨s.fb, false, false⟩

/-- `Dxyn` (R172): the blit at the coordinates read before any write, then VF, the picture and `DIRTY`. -/
def execDrw (x y : Reg) (n : Nibble) (s : State) : Host.Outcome State Fault Refusal :=
  let drawn := s.blit (s.getV x) (s.getV y) n.toNat
  .next ((s.setPicture drawn.fb drawn.changed).setFlag drawn.hit)

end Sys2Proof.Machine
end

