-- ==== Sys2Proof/Machine/IndexMemory.lean ====
section
/-! DEFINITION. Index register, loads and stores (spec/43_index_memory.md). No meaning here writes VF as a flag, and the
memory ones leave I as it is (R156). -/

namespace Sys2Proof.Machine

/-- `Annn` (R150). -/
def execLdINnn (nnn : Addr) (s : State) : Host.Outcome State Fault Refusal :=
  .next (s.setIndex (zextAddr nnn))

/-- `Fx1E` (R151): modulo 65536, VF not written. -/
def execAddIVx (x : Reg) (s : State) : Host.Outcome State Fault Refusal :=
  .next (s.setIndex (s.index + zextByte (s.getV x)))

/-- `Fx29` (R152). -/
def execLdFVx (x : Reg) (s : State) : Host.Outcome State Fault Refusal :=
  .next (s.setIndex (glyphAddr (s.getV x)))

/-- `Fx33` (R153): hundreds, tens and ones at `EA(0)`, `EA(1)`, `EA(2)`. -/
def execLdBVx (x : Reg) (s : State) : Host.Outcome State Fault Refusal :=
  let vx := s.getV x
  .next (((s.writeByte (s.ea 0) (hundreds vx)).writeByte (s.ea 1) (tens vx)).writeByte (s.ea 2) (ones vx))

/-- `Fx55` (R154). -/
def execLdMiVx (x : Reg) (s : State) : Host.Outcome State Fault Refusal :=
  .next (s.storeRegs x)

/-- `Fx65` (R155). -/
def execLdVxMi (x : Reg) (s : State) : Host.Outcome State Fault Refusal :=
  .next (s.loadRegs x)

end Sys2Proof.Machine
end

