-- ==== Sys2Proof/Machine/KeysTimers.lean ====
section
/-! DEFINITION. Keyboard and timer instructions (spec/45_keys_timers.md). `KEYS` is read only. -/

namespace Sys2Proof.Machine

/-- `Ex9E` (R190): skip if the key named by `V[x]` is pressed, or raise `KeyIndexRange` before any write (R192). -/
def execSkp (x : Reg) (s : State) : Host.Outcome State Fault Refusal :=
  match keyIndex? (s.getV x) with
  | none => .next (s.raiseInstr .keyIndexRange (encode (.skp x)))
  | some k => .next (s.skipIf (s.keyPressed k))

/-- `ExA1` (R191): skip if the key named by `V[x]` is not pressed, or raise `KeyIndexRange` before any write (R192). -/
def execSknp (x : Reg) (s : State) : Host.Outcome State Fault Refusal :=
  match keyIndex? (s.getV x) with
  | none => .next (s.raiseInstr .keyIndexRange (encode (.sknp x)))
  | some k => .next (s.skipIf (!s.keyPressed k))

/-- `Fx07` (R194): DT as it is before this step's decrement. -/
def execLdVxDt (x : Reg) (s : State) : Host.Outcome State Fault Refusal :=
  .next (s.setV x s.dt)

/-- `Fx0A` (R193): the highest pressed key to `V[x]`, or PC back by 2 to retry this instruction. -/
def execLdVxK (x : Reg) (s : State) : Host.Outcome State Fault Refusal :=
  match s.lastPressed with
  | some k => .next (s.setV x (BitVec.ofNat 8 k))
  | none => .next (s.setPc (s.pc - 2))

/-- `Fx15` (R195). -/
def execLdDtVx (x : Reg) (s : State) : Host.Outcome State Fault Refusal :=
  .next (s.setDt (s.getV x))

/-- `Fx18` (R196). -/
def execLdStVx (x : Reg) (s : State) : Host.Outcome State Fault Refusal :=
  .next (s.setSt (s.getV x))

end Sys2Proof.Machine
end

