-- ==== Sys2Proof/Machine/LoadAlu.lean ====
section
/-! DEFINITION. Register load and ALU instructions (spec/42_load_alu.md). Operands are read from the state before any
write; the order of the writes is R142's. -/

namespace Sys2Proof.Machine

/-- `6xkk` (R130). -/
def execLdVxKk (x : Reg) (kk : Byte) (s : State) : Host.Outcome State Fault Refusal :=
  .next (s.setV x kk)

/-- `7xkk` (R131): modulo 256, no flag. -/
def execAddVxKk (x : Reg) (kk : Byte) (s : State) : Host.Outcome State Fault Refusal :=
  .next (s.setV x (s.getV x + kk))

/-- `8xy0` (R132). -/
def execLdVxVy (x y : Reg) (s : State) : Host.Outcome State Fault Refusal :=
  .next (s.setV x (s.getV y))

/-- `8xy1` (R133): VF is not written. -/
def execOr (x y : Reg) (s : State) : Host.Outcome State Fault Refusal :=
  .next (s.setV x (s.getV x ||| s.getV y))

/-- `8xy2` (R134): VF is not written. -/
def execAnd (x y : Reg) (s : State) : Host.Outcome State Fault Refusal :=
  .next (s.setV x (s.getV x &&& s.getV y))

/-- `8xy3` (R135): VF is not written. -/
def execXor (x y : Reg) (s : State) : Host.Outcome State Fault Refusal :=
  .next (s.setV x (s.getV x ^^^ s.getV y))

/-- `8xy4` (R136): sum to `V[x]`, then carry to VF. -/
def execAddVxVy (x y : Reg) (s : State) : Host.Outcome State Fault Refusal :=
  .next (s.resultThenFlag x (s.getV x + s.getV y) (carryOut (s.getV x) (s.getV y)))

/-- `8xy5` (R137): difference to `V[x]`, then no-borrow to VF. -/
def execSub (x y : Reg) (s : State) : Host.Outcome State Fault Refusal :=
  .next (s.resultThenFlag x (s.getV x - s.getV y) (noBorrow (s.getV x) (s.getV y)))

/-- `8xy6` (R138): bit 0 to VF, then `V[x]` shifted right; `y` is ignored (R75). -/
def execShr (x _y : Reg) (s : State) : Host.Outcome State Fault Refusal :=
  .next (s.flagThenResult x (lowBit (s.getV x)) (s.getV x >>> 1))

/-- `8xy7` (R139): reverse difference to `V[x]`, then no-borrow to VF. -/
def execSubn (x y : Reg) (s : State) : Host.Outcome State Fault Refusal :=
  .next (s.resultThenFlag x (s.getV y - s.getV x) (noBorrow (s.getV y) (s.getV x)))

/-- `8xyE` (R140): bit 7 to VF, then `V[x]` shifted left; `y` is ignored (R75). -/
def execShl (x _y : Reg) (s : State) : Host.Outcome State Fault Refusal :=
  .next (s.flagThenResult x (highBit (s.getV x)) (s.getV x <<< 1))

/-- The state after a draw of `rand`: the next draw is a fresh byte (R39; notes/assumptions/3). -/
def State.afterDraw (s : State) : State := { s with draws := s.draws + 1 }

/-- `Cxkk` (R143): `rand and kk`, with `rand` the free byte of this draw. -/
def execRnd (x : Reg) (kk : Byte) (s : State) : Host.Outcome State Fault Refusal :=
  .next (s.afterDraw.setV x (Config.rand s.draws &&& kk))

end Sys2Proof.Machine
end

