-- ==== Sys2Proof/Machine/System.lean ====
section
/-! DEFINITION. The instruction that belongs to the cycle itself: the legacy `0nnn` form (spec/40_step_cycle.md R97). -/

namespace Sys2Proof.Machine

/-- `0nnn` is an unknown opcode: a report and no write (R96, R97). -/
def execSys (nnn : Addr) (s : State) : Host.Outcome State Fault Refusal :=
  .next (s.reportUnknown (encode (.sys nnn)))

end Sys2Proof.Machine
end

