-- ==== Sys2Proof/Machine/Step.lean ====
section
/-! DEFINITION. The one transition of the machine (spec/40_step_cycle.md R90). -/

namespace Sys2Proof.Machine

/-- A step (R90): the sticky check (R214), the fetch guard (R91), fetch, advance, decode, execute, post-execute. -/
def step (s : State) : Host.Outcome State Fault Refusal :=
  if s.latched then .next s
  else if s.pcOverflows then .next (s.raise .addressOverflow s.pc 0)
  else
    match decodeWord s.fetchWord with
    | .ok ins => finish (exec ins s.advance)
    | .error _ => finish (execUnknown s.fetchWord s.advance)

/-- `s` with the instruction `w` of `nbits` bits where the next step fetches: at PC, big-endian (R52, R92). The latch is
cleared and PC moved to 0x200 only in a state that could not fetch at all (notes/assumptions/5). -/
def State.withFetchWord (s : State) (nbits w : Nat) : State :=
  s.fetchable.placeWord (BitVec.ofNat 16 (w % 2 ^ nbits))

end Sys2Proof.Machine
end

