-- ==== Sys2Proof/Machine/Ports.lean ====
section
/-! DEFINITION. The ports of the block: the result of a step and the commands of the host
(spec/10_state.md R38 to R43, spec/70_reset_and_hazards.md R240 to R247). -/

namespace Sys2Proof.Machine

/-- What a completed or abandoned step that fetched `op` and left `t` returns (R43). -/
def resultOf (op : Word) (t : State) : StepResult :=
  if t.latched then .faulted t.fault
  else if isUnknownOpcode op then .reported op
  else .ok

/-- The result the step from `s` returns to the host (R43, R90, R218); `none` if the model had no step, which never is. -/
def stepResult (s : State) : Option StepResult :=
  match step s with
  | .next t => some (resultOf s.fetchWord t)
  | .fault _ => none
  | .refused _ => none

/-- `reset` (R240): every piece of state at its reset value, memory's from the parameter `FONT` (R7). The counter of draws
goes on, so that no `rand` byte is drawn twice (notes/assumptions/3). -/
def hostReset (font : Font) (s : State) : State := { State.resetWith font with draws := s.draws }

/-- The state is that of a reset but for keys reported since: what `load` must follow (R245, R247). DESIGN CHOICE, unsafe
(notes/assumptions/6): R245 asks that no step came in between, and this asks it of the state, which keeps no record of past
commands. So a `load` after steps, or after another `load`, that left the core in its reset state is performed, where R245
leaves it undefined. -/
def State.justReset (font : Font) (s : State) : Bool :=
  decide ({ s with keys := State.reset.keys, draws := State.reset.draws } = State.resetWith font)

/-- `load(bytes)` (R245): `MEM[0x200 + i] <- bytes[i]`, or a failure that writes nothing. -/
def hostLoad (font : Font) (bytes : List Byte) (s : State) : CommandOutcome :=
  if ¬ s.justReset font then .notDefined
  else if Config.romMax < bytes.length then .romTooLarge
  else .done { s with mem := s.mem.writeList Config.progBase bytes }

/-- `clear_dirty` (R41). -/
def clearDirty (s : State) : State := { s with dirty := false }

/-- One command of the host (R244) on a core with the parameter `FONT`. -/
def perform (font : Font) : Command → State → CommandOutcome
  | .reset, s => .done (hostReset font s)
  | .load bytes, s => hostLoad font bytes s
  | .keyDown k, s => .done (s.setKey k true)
  | .keyUp k, s => .done (s.setKey k false)
  | .clearDirty, s => .done (clearDirty s)
  | .step, s =>
    match step s with
    | .next t => .done t
    | .fault _ => .notDefined
    | .refused _ => .notDefined

/-- A sequence of commands; a failed `load` leaves the state as it was, and `none` is a command the spec defines no effect for. -/
def performAll (font : Font) : List Command → State → Option State
  | [], s => some s
  | c :: cs, s =>
    match perform font c s with
    | .done t => performAll font cs t
    | .romTooLarge => performAll font cs s
    | .notDefined => none

end Sys2Proof.Machine
end

