-- ==== Sys2Proof/Safety.lean ====
section
/-! DEFINITION. The terms claims use: the observable parts of the state and frames over them, what each instruction may
write and read (spec/10_state.md R35), the invariant of the machine, safe steps and the end of a run. -/

namespace Sys2Proof.Machine

/-! ### Parts of the state and frames -/

/-- Every piece of state (R20 to R30), down to one register, slot, key, pixel and memory byte. -/
inductive Part where
  | v (r : Reg)
  | index
  | pc
  | sp
  | stack (k : Fin 16)
  | dt
  | st
  | key (k : Nibble)
  | pixel (row : Fin 32) (col : Fin 64)
  | dirty
  | fault
  | faultPc
  | faultOp
  | mem (a : Addr)
  /-- The model's own counter of draws (notes/assumptions/3). -/
  | draws
  deriving DecidableEq, Repr

/-- The numeric code of a fault cause (R29, R210). -/
def FaultCause.code : FaultCause → Nat
  | .none => 0
  | .addressOverflow => 1
  | .stackOverflow => 2
  | .stackUnderflow => 3
  | .keyIndexRange => 4

/-- The value of a part, as a number; a memory byte is what a read of its address gives. -/
def State.obs (s : State) : Part → Nat
  | .v r => (s.getV r).toNat
  | .index => s.index.toNat
  | .pc => s.pc.toNat
  | .sp => s.sp.val
  | .stack k => (s.stack[k]).toNat
  | .dt => s.dt.toNat
  | .st => s.st.toNat
  | .key k => (s.keyPressed k).toNat
  | .pixel row col => (s.fb.pixel row col).toNat
  | .dirty => s.dirty.toNat
  | .fault => s.fault.code
  | .faultPc => s.faultPc.toNat
  | .faultOp => s.faultOp.toNat
  | .mem a => (s.readByte a).toNat
  | .draws => s.draws

/-- From `s` to `t` nothing changed but the parts in `W`. -/
def Frame (W : Part → Prop) (s t : State) : Prop := ∀ p, ¬ W p → t.obs p = s.obs p

/-- The parts a fault raised in the execute phase writes: PC is put back and the latch set (R213). -/
def latchParts : Part → Prop
  | .pc | .fault | .faultPc | .faultOp => True
  | _ => False

/-! ### What each instruction writes and reads (R35) -/

/-- The parts the execute phase of an instruction may write: the 'written by' column of R35, with the stack slot, the
pixels and the memory bytes named one by one. -/
def writes (s : State) : Instr → Part → Prop
  | .cls, p => p = .dirty ∨ ∃ row col, p = .pixel row col
  | .ret, p => p = .sp ∨ latchParts p
  | .sys _, _ => False
  | .jp _, p => p = .pc
  | .call _, p => p = .sp ∨ (∃ k : Fin 16, k.val = s.sp.val ∧ p = .stack k) ∨ latchParts p
  | .seVxKk _ _, p => p = .pc
  | .sneVxKk _ _, p => p = .pc
  | .seVxVy _ _, p => p = .pc
  | .ldVxKk x _, p => p = .v x
  | .addVxKk x _, p => p = .v x
  | .ldVxVy x _, p => p = .v x
  | .orVxVy x _, p => p = .v x
  | .andVxVy x _, p => p = .v x
  | .xorVxVy x _, p => p = .v x
  | .addVxVy x _, p => p = .v x ∨ p = .v VF
  | .sub x _, p => p = .v x ∨ p = .v VF
  | .shr x _, p => p = .v x ∨ p = .v VF
  | .subn x _, p => p = .v x ∨ p = .v VF
  | .shl x _, p => p = .v x ∨ p = .v VF
  | .sneVxVy _ _, p => p = .pc
  | .ldINnn _, p => p = .index
  | .jpV0 _, p => p = .pc
  | .rnd x _, p => p = .v x ∨ p = .draws
  | .drw x y n, p =>
    p = .v VF ∨ p = .dirty ∨
      ∃ r b, r < n.toNat ∧ b < 8 ∧ p = .pixel (spriteRow (s.getV y) r) (spriteCol (s.getV x) b)
  | .skp _, p => latchParts p
  | .sknp _, p => latchParts p
  | .ldVxDt x, p => p = .v x
  | .ldVxK x, p => p = .v x ∨ p = .pc
  | .ldDtVx _, p => p = .dt
  | .ldStVx _, p => p = .st
  | .addIVx _, p => p = .index
  | .ldFVx _, p => p = .index
  | .ldBVx _, p => ∃ off, off < 3 ∧ p = .mem (s.ea off)
  | .ldMiVx x, p => ∃ off, off ≤ x.toNat ∧ p = .mem (s.ea off)
  | .ldVxMi x, p => ∃ r : Reg, r.toNat ≤ x.toNat ∧ p = .v r

/-- The parts the execute phase of an instruction may read: the 'read by' column of R35, which lists PC for the push of
`2nnn`, and two readings that the column does not list. PC is read also by the six skips and `Fx0A`, which change it
relative to its advanced value (R93), and by `00EE`, whose fault puts it back (R213; notes/assumptions/4); the model's own
counter of draws is read by `Cxkk` (notes/assumptions/3). -/
def reads (s : State) : Instr → Part → Prop
  | .cls, _ => False
  | .ret, p => p = .sp ∨ (∃ k : Fin 16, k.val + 1 = s.sp.val ∧ p = .stack k) ∨ p = .pc
  | .sys _, _ => False
  | .jp _, _ => False
  | .call _, p => p = .sp ∨ p = .pc
  | .seVxKk x _, p => p = .v x ∨ p = .pc
  | .sneVxKk x _, p => p = .v x ∨ p = .pc
  | .seVxVy x y, p => p = .v x ∨ p = .v y ∨ p = .pc
  | .ldVxKk _ _, _ => False
  | .addVxKk x _, p => p = .v x
  | .ldVxVy _ y, p => p = .v y
  | .orVxVy x y, p => p = .v x ∨ p = .v y
  | .andVxVy x y, p => p = .v x ∨ p = .v y
  | .xorVxVy x y, p => p = .v x ∨ p = .v y
  | .addVxVy x y, p => p = .v x ∨ p = .v y
  | .sub x y, p => p = .v x ∨ p = .v y
  | .shr x _, p => p = .v x
  | .subn x y, p => p = .v x ∨ p = .v y
  | .shl x _, p => p = .v x
  | .sneVxVy x y, p => p = .v x ∨ p = .v y ∨ p = .pc
  | .ldINnn _, _ => False
  | .jpV0 _, p => p = .v 0
  | .rnd _ _, p => p = .draws
  | .drw x y n, p =>
    p = .v x ∨ p = .v y ∨ p = .index ∨ (∃ r, r < n.toNat ∧ p = .mem (s.ea r)) ∨
      ∃ r b, r < n.toNat ∧ b < 8 ∧ p = .pixel (spriteRow (s.getV y) r) (spriteCol (s.getV x) b)
  | .skp x, p => p = .v x ∨ (∃ k : Nibble, k.toNat = (s.getV x).toNat ∧ p = .key k) ∨ p = .pc
  | .sknp x, p => p = .v x ∨ (∃ k : Nibble, k.toNat = (s.getV x).toNat ∧ p = .key k) ∨ p = .pc
  | .ldVxDt _, p => p = .dt
  | .ldVxK _, p => (∃ k, p = .key k) ∨ p = .pc
  | .ldDtVx x, p => p = .v x
  | .ldStVx x, p => p = .v x
  | .addIVx x, p => p = .v x ∨ p = .index
  | .ldFVx x, p => p = .v x
  | .ldBVx x, p => p = .v x ∨ p = .index
  | .ldMiVx x, p => p = .index ∨ ∃ r : Reg, r.toNat ≤ x.toNat ∧ p = .v r
  | .ldVxMi x, p => p = .index ∨ ∃ off, off ≤ x.toNat ∧ p = .mem (s.ea off)

/-- `i`, executed from `s`, stores the byte `b` at address `a`: the registers of `Fx55` (R154) and the decimal digits of
`Fx33`, hundreds first (R153). -/
def stores (s : State) : Instr → Nat → Byte → Prop
  | .ldMiVx x, a, b => ∃ r : Reg, r.toNat ≤ x.toNat ∧ (s.ea r.toNat).toNat = a ∧ b = s.getV r
  | .ldBVx x, a, b =>
    ∃ off, off < 3 ∧ (s.ea off).toNat = a ∧ b.toNat = (s.getV x).toNat / 10 ^ (2 - off) % 10
  | .cls, _, _ | .ret, _, _ | .sys _, _, _ | .jp _, _, _ | .call _, _, _ | .seVxKk _ _, _, _ | .sneVxKk _ _, _, _
  | .seVxVy _ _, _, _ | .ldVxKk _ _, _, _ | .addVxKk _ _, _, _ | .ldVxVy _ _, _, _ | .orVxVy _ _, _, _
  | .andVxVy _ _, _, _ | .xorVxVy _ _, _, _ | .addVxVy _ _, _, _ | .sub _ _, _, _ | .shr _ _, _, _
  | .subn _ _, _, _ | .shl _ _, _, _ | .sneVxVy _ _, _, _ | .ldINnn _, _, _ | .jpV0 _, _, _ | .rnd _ _, _, _
  | .drw _ _ _, _, _ | .skp _, _, _ | .sknp _, _, _ | .ldVxDt _, _, _ | .ldVxK _, _, _ | .ldDtVx _, _, _
  | .ldStVx _, _, _ | .addIVx _, _, _ | .ldFVx _, _, _ | .ldVxMi _, _, _ => False

/-! ### The invariant -/

/-- The latch tells the truth about the fault it holds (R29, R210): PC stands at the faulting step's `pc0`, and the cause's
own condition still holds. While no fault is held, `FAULT_PC` and `FAULT_OP` are 0. -/
def State.latchInv (s : State) : Prop :=
  match s.fault with
  | .none => s.faultPc = 0 ∧ s.faultOp = 0
  | .addressOverflow => s.faultPc = s.pc ∧ s.faultOp = 0 ∧ 0x0FFF ≤ s.pc.toNat
  | .stackOverflow =>
    s.faultPc = s.pc ∧ s.pc.toNat ≤ 0x0FFE ∧ s.sp.val = 16 ∧ ∃ nnn, decodeWord s.faultOp = .ok (.call nnn)
  | .stackUnderflow => s.faultPc = s.pc ∧ s.pc.toNat ≤ 0x0FFE ∧ s.sp.val = 0 ∧ s.faultOp = 0x00EE
  | .keyIndexRange =>
    s.faultPc = s.pc ∧ s.pc.toNat ≤ 0x0FFE ∧
      ∃ x, 15 < (s.getV x).toNat ∧
        (decodeWord s.faultOp = .ok (.skp x) ∨ decodeWord s.faultOp = .ok (.sknp x))

/-- The invariant of the machine: memory in canonical form, PC and every return address in the ranges R23 gives, the
latch consistent. -/
def State.inv (s : State) : Prop :=
  s.mem.wf = true ∧ s.pc.toNat ≤ 0x10FE ∧ (∀ k : Fin 16, (s.stack[k]).toNat ≤ 0x1000) ∧ s.latchInv

/-! ### Safe steps and the end of a run -/

/-- The step from `s` completes and meets no unknown opcode (R43): the prudent safety predicate of R218. -/
def State.safeStep (s : State) : Prop := stepResult s = some .ok

/-- From `s`, `k` further completed steps (R197) lead to `t`, none of them executing an instruction that `bad` marks. -/
def completedSteps (bad : Instr → Bool) : Nat → State → State → Prop
  | 0, s, t => s = t
  | k + 1, s, t =>
    ∃ u, step s = .next u ∧ u.latched = false ∧ (∀ ins, decodeWord s.fetchWord = .ok ins → bad ins = false) ∧
      completedSteps bad k u t

/-- The next step from `s` fetches and executes the word `op`: no fault is held and PC is in range (R90, R91). -/
def State.fetches (s : State) (op : Word) : Prop := s.latched = false ∧ s.pc.toNat ≤ 0x0FFE ∧ s.fetchWord = op

/-- The next step from `s` executes the instruction `i`. -/
def State.executes (s : State) (i : Instr) : Prop :=
  s.latched = false ∧ s.pc.toNat ≤ 0x0FFE ∧ decodeWord s.fetchWord = .ok i

/-- `RUN_END` (R101, notes/assumptions/7): the core stands, with no fault, at a `1nnn` whose target is its own address. -/
def State.runEnded (s : State) : Prop :=
  ∃ nnn, s.executes (.jp nnn) ∧ zextAddr nnn = s.pc

end Sys2Proof.Machine
end

