-- ==== Sys2Proof/Certificates/Slice0/Obligations.lean ====
section
/-! DEFINITION. The statements for the provers, from the numbered rules of spec/. In a statement about `exec`, `s` is the
state of the execute phase: PC already holds `pc0 + 2` (R93). -/

open Sys2Proof Sys2Proof.Machine

/-! ### Encoding -/

/-- Decoding the word of a well-formed instruction gives it back, alone and at the head of a byte stream (R70 to R74). -/
def Obligations.DecodeOfEncode : Prop :=
  ∀ i : Instr, i.wellFormed = true →
    decodeWord (encode i) = .ok i ∧ ∀ rest, decode (bytesOfWord (encode i) ++ rest) = .ok (i, rest)

/-- Each word has at most one meaning: what decodes to `i` is the word of `i`, and `i` is well formed (R73, R78). -/
def Obligations.EncodeOfDecode : Prop :=
  ∀ (op : Word) (i : Instr), decodeWord op = .ok i → encode i = op ∧ i.wellFormed = true

/-- The decoder is the opcode map of R74: it answers an instruction of a row exactly for the words the row claims, the
rows other than `SYS` are disjoint, and `SYS` has every word of group 0 but 0x00E0 and 0x00EE. -/
def Obligations.DecodeIsOpcodeMap : Prop :=
  ∀ op : Word,
    (∀ i, decodeWord op = .ok i → i.row.claims op) ∧
    (∀ j : Instr, j.row.claims op → (j.row = (Instr.sys 0).row → op ≠ 0x00E0#16 ∧ op ≠ 0x00EE#16) →
      ∃ i, decodeWord op = .ok i ∧ i.row = j.row) ∧
    (∀ j k : Instr, j.row.claims op → k.row.claims op → j.row ≠ (Instr.sys 0).row → k.row ≠ (Instr.sys 0).row →
      j.row = k.row)

/-- The words that decode to no instruction are those R76 lists (but for `SYS`), each rejected by name. -/
def Obligations.UnknownWordsAreThoseListed : Prop :=
  ∀ op : Word,
    (∀ e, decodeWord op = .error e → e = .unknown op) ∧
    (decodeWord op = .error (.unknown op) ↔
      (opGroup op = 0x5 ∧ opN op ≠ 0) ∨
      (opGroup op = 0x8 ∧ 8 ≤ (opN op).toNat ∧ opN op ≠ 0xE) ∨
      (opGroup op = 0x9 ∧ opN op ≠ 0) ∨
      (opGroup op = 0xE ∧ opKk op ≠ 0x9E ∧ opKk op ≠ 0xA1) ∨
      (opGroup op = 0xF ∧ opKk op ∉ [0x07, 0x0A, 0x15, 0x18, 0x1E, 0x29, 0x33, 0x55, 0x65])) ∧
    (isUnknownOpcode op = true ↔
      decodeWord op = .error (.unknown op) ∨ (opGroup op = 0x0 ∧ op ≠ 0x00E0#16 ∧ op ≠ 0x00EE#16))

/-- Words written out from the patterns decode to the instructions they stand for, one or more of each family
(spec/95_test_vectors.md 2.1). -/
def Obligations.WordsWrittenOutDecode : Prop :=
  decodeWord 0x00E0 = .ok .cls ∧ decodeWord 0x01E0 = .ok (.sys 0x1E0) ∧ decodeWord 0x2FFF = .ok (.call 0xFFF) ∧
  decodeWord 0x3A42 = .ok (.seVxKk 0xA 0x42) ∧ decodeWord 0x8AB7 = .ok (.subn 0xA 0xB) ∧
  decodeWord 0xB300 = .ok (.jpV0 0x300) ∧ decodeWord 0xD12F = .ok (.drw 1 2 15) ∧ decodeWord 0xE3A1 = .ok (.sknp 3) ∧
  decodeWord 0xF00A = .ok (.ldVxK 0) ∧ decodeWord 0xFF65 = .ok (.ldVxMi 0xF) ∧
  decodeWord 0x8ABD = .error (.unknown 0x8ABD) ∧ decodeWord 0xE30E = .error (.unknown 0xE30E)

/-! ### The step -/

/-- The fetched word is `MEM[pc0] * 256 + MEM[pc0 + 1]` (R52, R92). -/
def Obligations.FetchIsBigEndian : Prop :=
  ∀ s : State, s.pc.toNat ≤ 0x0FFE →
    s.fetchWord.toNat = (s.mem.read s.pc.toNat).toNat * 256 + (s.mem.read (s.pc.toNat + 1)).toNat

/-- When the two bytes at PC decode to `i`, the step is the execute phase of `i` on the state with PC advanced by 2 and
nothing else changed, followed by the post-execute phase, which a raised fault suppresses (R90, R93, R99). -/
def Obligations.StepRunsDecodedInstruction : Prop :=
  ∀ (s : State) (i : Instr), s.latched = false → s.pc.toNat ≤ 0x0FFE →
    decode [s.mem.read s.pc.toNat, s.mem.read (s.pc.toNat + 1)] = .ok (i, []) →
    step s = finish (exec i s.advance) ∧
    s.advance.pc = s.pc + 2 ∧ Frame (· = .pc) s s.advance ∧
    ∀ u, exec i s.advance = .next u → step s = .next (if u.latched then u else u.tick)

/-- An unknown opcode, the legacy `0nnn` form included, is stepped over: PC advances, the timers tick, the word is
reported, and nothing else changes (R96, R97). -/
def Obligations.UnknownOpcodeIsSteppedOver : Prop :=
  (∀ (nnn : Addr) (s : State), exec (.sys nnn) s = .next s) ∧
  ∀ (s : State) (op : Word), s.fetches op → isUnknownOpcode op = true →
    ∃ t, step s = .next t ∧ t.pc = s.pc + 2 ∧ t.dt.toNat = s.dt.toNat - 1 ∧ t.st.toNat = s.st.toNat - 1 ∧
      t.fault = .none ∧ Frame (fun p => p = .pc ∨ p = .dt ∨ p = .st) s t ∧ stepResult s = some (.reported op)

/-- In a step that raised nothing both timers end one lower than the execute phase left them, to a floor of 0, and the
post-execute phase changes nothing else; in a step that raised, or that found the latch set, they are as before (R99). -/
def Obligations.TimersTickOncePerCompletedStep : Prop :=
  ∀ s t : State, step s = .next t →
    (t.latched = true → t.dt = s.dt ∧ t.st = s.st) ∧
    (t.latched = false →
      ∃ u, ((∃ i, decodeWord s.fetchWord = .ok i ∧ exec i s.advance = .next u) ∨
            (decodeWord s.fetchWord = .error (.unknown s.fetchWord) ∧ u = s.advance)) ∧
        t.dt.toNat = u.dt.toNat - 1 ∧ t.st.toNat = u.st.toNat - 1 ∧ Frame (fun p => p = .dt ∨ p = .st) u t)

/-- With `pc0 >= 0x0FFF` no fetch is made and the step raises `AddressOverflow` (R91). -/
def Obligations.FetchGuardRaises : Prop :=
  ∀ s : State, s.latched = false → 0x0FFF ≤ s.pc.toNat →
    ∃ t, step s = .next t ∧ t.fault = .addressOverflow ∧ t.faultPc = s.pc ∧ t.faultOp = 0 ∧
      Frame (fun p => p = .fault ∨ p = .faultPc ∨ p = .faultOp) s t ∧
      stepResult s = some (.faulted .addressOverflow)

/-- `AddressOverflow` is raised by the step that would fetch, not by the one that produced the PC: a `1nnn` to 0xFFF
completes, and the step after it faults with `FAULT_PC = 0x0FFF` (R215). -/
def Obligations.JumpToTopFaultsOneStepLater : Prop :=
  ∀ s : State, s.executes (.jp 0xFFF) →
    ∃ t u, step s = .next t ∧ t.latched = false ∧ t.pc = 0x0FFF ∧ stepResult s = some .ok ∧
      step t = .next u ∧ u.fault = .addressOverflow ∧ u.faultPc = 0x0FFF

/-- A step that raises is precise: the state after it is the state before it plus the latch, which records `pc0` and the
instruction word, or 0 when nothing was fetched; the host is told the cause (R213). -/
def Obligations.RaisedFaultIsPrecise : Prop :=
  ∀ s t : State, s.latched = false → step s = .next t → t.latched = true →
    Frame (fun p => p = .fault ∨ p = .faultPc ∨ p = .faultOp) s t ∧
    t.faultPc = s.pc ∧ t.faultOp = (if 0x0FFF ≤ s.pc.toNat then 0 else s.fetchWord) ∧
    stepResult s = some (.faulted t.fault)

/-- The four causes are raised exactly under their conditions, each with its code (`FAULT` is 1 to 4, and 0 for none), and
the latch records `pc0` and the instruction word, 0 for `AddressOverflow` (R210). -/
def Obligations.FaultConditions : Prop :=
  ∀ s t : State, s.latched = false → step s = .next t →
    (t.obs .fault = 1 ↔ 0x0FFF ≤ s.pc.toNat) ∧
    (t.obs .fault = 2 ↔ ∃ nnn, s.executes (.call nnn) ∧ s.sp.val = 16) ∧
    (t.obs .fault = 3 ↔ s.executes .ret ∧ s.sp.val = 0) ∧
    (t.obs .fault = 4 ↔ ∃ x, (s.executes (.skp x) ∨ s.executes (.sknp x)) ∧ 15 < (s.getV x).toNat) ∧
    (t.obs .fault = 0 → t.faultPc = s.faultPc ∧ t.faultOp = s.faultOp) ∧
    (t.obs .fault ≠ 0 → t.faultPc = s.pc ∧ t.faultOp = if t.obs .fault = 1 then 0 else s.fetchWord)

/-- Every state has a next step: no fault, no refusal, for any instruction and any word (R78, R100, R101). -/
def Obligations.EveryStepAnswers : Prop :=
  (∀ (i : Instr) (s : State), ∃ t, exec i s = .next t) ∧ ∀ s : State, ∃ t, step s = .next t

/-- The result of a step is one of three, and says what happened (R43, R214, R218). -/
def Obligations.StepResultSaysWhatHappened : Prop :=
  ∀ s t : State, step s = .next t →
    (stepResult s = some (.faulted t.fault) ↔ t.latched = true) ∧
    (∀ op, stepResult s = some (.reported op) ↔ s.fetches op ∧ isUnknownOpcode op = true) ∧
    (stepResult s = some .ok ↔ t.latched = false ∧ isUnknownOpcode s.fetchWord = false)

/-! ### Invariants, reset and the host's commands -/

/-- Every step keeps the invariant: memory canonical, PC at most 0x10FE, return addresses at most 0x1000, the latch
consistent (R23, R29, R59). -/
def Obligations.StepKeepsInvariant : Prop :=
  ∀ s t : State, s.inv → step s = .next t → t.inv

/-- The state after reset meets the invariant, whatever the parameter `FONT` is. -/
def Obligations.ResetMeetsInvariant : Prop := State.reset.inv ∧ ∀ font : Font, (State.resetWith font).inv

/-- Every command of the host keeps the invariant (R244), where the model performs it (notes/assumptions/6). -/
def Obligations.CommandsKeepInvariant : Prop :=
  ∀ (font : Font) (c : Command) (s t : State), s.inv → perform font c s = .done t → t.inv

/-- What reset leaves in everything but memory, whatever the parameter `FONT` is (R34). -/
def Obligations.ResetRegisters : Prop :=
  ∀ (font : Font) (s : State), s = State.reset ∨ s = State.resetWith font →
    (∀ r, s.getV r = 0) ∧ s.index = 0 ∧ s.pc = 0x0200 ∧ s.sp = 0 ∧ (∀ k : Fin 16, s.stack[k] = 0) ∧ s.dt = 0 ∧
    s.st = 0 ∧ (∀ k, s.keyPressed k = false) ∧ (∀ row col, s.fb.pixel row col = false) ∧ s.dirty = false ∧
    s.fault = .none ∧ s.faultPc = 0 ∧ s.faultOp = 0

/-- What reset leaves in memory, for every value of the parameter `FONT`: its 80 bytes from 0x000 on, the first of them
0xF0, and zero above (R7, R33). `State.reset` is the reset with the spec's default for it (notes/assumptions/1); nothing is
said of that default's other bytes. -/
def Obligations.ResetMemory : Prop :=
  State.reset = State.resetWith Font.default ∧
  ∀ font : Font, (State.resetWith font).readByte 0 = 0xF0 ∧
    (∀ a : Addr, a.toNat < 80 → font.bytes[a.toNat]? = some ((State.resetWith font).readByte a)) ∧
    ∀ a : Addr, 80 ≤ a.toNat → (State.resetWith font).readByte a = 0

/-- The host's `reset`, from every state and with every `FONT`, restores every piece of state to its reset value, and so
clears the latch (R240). The model's own counter of draws goes on (notes/assumptions/3). -/
def Obligations.HostResetRestoresEverything : Prop :=
  ∀ (font : Font) (s : State),
    ∃ t, perform font .reset s = .done t ∧ Frame (· = .draws) (State.resetWith font) t ∧ t.draws = s.draws ∧
      t.latched = false

/-- `load` writes the ROM at 0x200 upward and changes nothing else, or fails when the ROM is too large (R245). That it
follows a reset is the model's choice of a condition on the state, which a run of steps can also meet, where R245 defines
no `load` (notes/assumptions/6). -/
def Obligations.LoadWritesRom : Prop :=
  ∀ (font : Font) (s : State) (bytes : List Byte), s.justReset font = true →
    (3584 < bytes.length → perform font (.load bytes) s = .romTooLarge) ∧
    (bytes.length ≤ 3584 →
      ∃ t, perform font (.load bytes) s = .done t ∧
        (∀ (i : Nat) (h : i < bytes.length), t.readByte (BitVec.ofNat 12 (0x200 + i)) = bytes[i]) ∧
        Frame (fun p => ∃ a : Addr, p = .mem a ∧ 0x200 ≤ a.toNat ∧ a.toNat < 0x200 + bytes.length) s t)

/-- `key_down` and `key_up` set and clear one key flag, and `clear_dirty` clears `DIRTY`; each changes nothing else, in
every state (R40, R41). -/
def Obligations.HostPortsChangeOneThing : Prop :=
  ∀ (font : Font) (s : State) (k : Nibble),
    (∃ t, perform font (.keyDown k) s = .done t ∧ t.keyPressed k = true ∧ Frame (· = .key k) s t) ∧
    (∃ t, perform font (.keyUp k) s = .done t ∧ t.keyPressed k = false ∧ Frame (· = .key k) s t) ∧
    (∃ t, perform font .clearDirty s = .done t ∧ t.dirty = false ∧ Frame (· = .dirty) s t)

/-- Booting from any state and with any `FONT`, with key events after the load, gives the launch state of R247: the reset state with the ROM
at 0x200 and possibly some keys pressed. The model's own counter of draws goes on (notes/assumptions/3). -/
def Obligations.BootGivesLaunchState : Prop :=
  ∀ (font : Font) (s : State) (rom : List Byte) (events : List Command), rom.length ≤ 3584 →
    (∀ c ∈ events, ∃ k, c = .keyDown k ∨ c = .keyUp k) →
    ∃ t, performAll font (.reset :: .load rom :: events) s = some t ∧
      (∀ (i : Nat) (h : i < rom.length), t.readByte (BitVec.ofNat 12 (0x200 + i)) = rom[i]) ∧
      Frame (fun p => (∃ k, p = .key k) ∨ p = .draws ∨
        ∃ a : Addr, p = .mem a ∧ 0x200 ≤ a.toNat ∧ a.toNat < 0x200 + rom.length) (State.resetWith font) t

/-- The latch is sticky: once it holds a fault a step changes nothing and answers the same fault again, and no sequence of
commands without `reset` changes anything but keys and `DIRTY`; `reset` clears it (R214). -/
def Obligations.LatchIsSticky : Prop :=
  ∀ (font : Font) (s : State), s.latched = true →
    step s = .next s ∧ stepResult s = some (.faulted s.fault) ∧ (hostReset font s).latched = false ∧
    (∀ k, (∃ t, perform font (.keyDown k) s = .done t ∧ t.keyPressed k = true) ∧
      ∃ t, perform font (.keyUp k) s = .done t ∧ t.keyPressed k = false) ∧
    (∃ t, perform font .clearDirty s = .done t ∧ t.dirty = false) ∧
    ∀ (cs : List Command) (t : State), .reset ∉ cs → performAll font cs s = some t →
      Frame (fun p => (∃ k, p = .key k) ∨ p = .dirty) s t

/-! ### Control transfer -/

/-- `00EE` pops the call stack into PC, or raises `StackUnderflow` when it is empty (R110). -/
def Obligations.ReturnPops : Prop :=
  ∀ s : State,
    (∀ h : 0 < s.sp.val,
      ∃ t, exec .ret s = .next t ∧ t.sp.val = s.sp.val - 1 ∧
        t.pc = s.stack[s.sp.val - 1]'(Nat.lt_of_lt_of_le (Nat.sub_lt h Nat.one_pos) (Nat.le_of_lt_succ s.sp.isLt)) ∧
        Frame (fun p => p = .sp ∨ p = .pc) s t) ∧
    (s.sp.val = 0 →
      ∃ t, exec .ret s = .next t ∧ t.fault = .stackUnderflow ∧ t.pc = s.pc - 2 ∧ t.faultPc = s.pc - 2 ∧
        t.faultOp = 0x00EE ∧ Frame latchParts s t)

/-- `1nnn` and `Bnnn` set PC, the latter to a 16-bit sum that is not reduced, and change nothing else (R111, R113). -/
def Obligations.JumpsSetPc : Prop :=
  ∀ (s : State) (nnn : Addr),
    (∃ t, exec (.jp nnn) s = .next t ∧ t.pc.toNat = nnn.toNat ∧ Frame (· = .pc) s t) ∧
    (∃ t, exec (.jpV0 nnn) s = .next t ∧ t.pc.toNat = nnn.toNat + (s.getV 0).toNat ∧ t.pc.toNat ≤ 0x10FE ∧
      Frame (· = .pc) s t)

/-- `2nnn` pushes the advanced PC and jumps, or raises `StackOverflow` when all 16 slots are in use (R112). -/
def Obligations.CallPushes : Prop :=
  ∀ (s : State) (nnn : Addr),
    (∀ h : s.sp.val < 16,
      ∃ t, exec (.call nnn) s = .next t ∧ t.stack[s.sp.val] = s.pc ∧ t.sp.val = s.sp.val + 1 ∧
        t.pc.toNat = nnn.toNat ∧ Frame (fun p => p = .sp ∨ p = .pc ∨ p = .stack ⟨s.sp.val, h⟩) s t) ∧
    (s.sp.val = 16 →
      ∃ t, exec (.call nnn) s = .next t ∧ t.fault = .stackOverflow ∧ t.pc = s.pc - 2 ∧ t.faultPc = s.pc - 2 ∧
        t.faultOp = encode (.call nnn) ∧ Frame latchParts s t)

/-- The round-trip law: a `00EE` that pops the slot a `2nnn` pushed goes to the instruction after the call (R112, C11). -/
def Obligations.CallThenReturnRoundTrip : Prop :=
  ∀ (s t u : State) (nnn : Addr), s.executes (.call nnn) → (h : s.sp.val < 16) → step s = .next t →
    u.executes .ret → u.sp = t.sp → u.stack[s.sp.val] = t.stack[s.sp.val] →
    ∃ w, step u = .next w ∧ w.pc = s.pc + 2 ∧ w.sp = s.sp

/-- The four register skips add 2 to the advanced PC exactly when their condition holds, and change nothing else
(R114 to R118). -/
def Obligations.RegisterSkips : Prop :=
  ∀ (s : State) (x y : Reg) (kk : Byte),
    (∃ t, exec (.seVxKk x kk) s = .next t ∧ t.pc = (if s.getV x = kk then s.pc + 2 else s.pc) ∧ Frame (· = .pc) s t) ∧
    (∃ t, exec (.sneVxKk x kk) s = .next t ∧ t.pc = (if s.getV x = kk then s.pc else s.pc + 2) ∧ Frame (· = .pc) s t) ∧
    (∃ t, exec (.seVxVy x y) s = .next t ∧ t.pc = (if s.getV x = s.getV y then s.pc + 2 else s.pc) ∧
      Frame (· = .pc) s t) ∧
    (∃ t, exec (.sneVxVy x y) s = .next t ∧ t.pc = (if s.getV x = s.getV y then s.pc else s.pc + 2) ∧
      Frame (· = .pc) s t)

/-! ### Register load and ALU -/

/-- `6xkk`, `7xkk`, `8xy0`: the result, and no flag, whatever `x` is (R130, R131, R132). -/
def Obligations.LoadsAndAddImmediate : Prop :=
  ∀ (s : State) (x y : Reg) (kk : Byte),
    (∃ t, exec (.ldVxKk x kk) s = .next t ∧ t.getV x = kk ∧ Frame (· = .v x) s t) ∧
    (∃ t, exec (.addVxKk x kk) s = .next t ∧ (t.getV x).toNat = ((s.getV x).toNat + kk.toNat) % 256 ∧
      Frame (· = .v x) s t) ∧
    (∃ t, exec (.ldVxVy x y) s = .next t ∧ t.getV x = s.getV y ∧ Frame (· = .v x) s t)

/-- `8xy1`, `8xy2`, `8xy3`: bitwise on all 8 bits, VF not written unless it is `x` (R133, R134, R135). -/
def Obligations.LogicIsBitwise : Prop :=
  ∀ (s : State) (x y : Reg),
    (∃ t, exec (.orVxVy x y) s = .next t ∧ Frame (· = .v x) s t ∧
      ∀ b < 8, (t.getV x).getLsbD b = ((s.getV x).getLsbD b || (s.getV y).getLsbD b)) ∧
    (∃ t, exec (.andVxVy x y) s = .next t ∧ Frame (· = .v x) s t ∧
      ∀ b < 8, (t.getV x).getLsbD b = ((s.getV x).getLsbD b && (s.getV y).getLsbD b)) ∧
    (∃ t, exec (.xorVxVy x y) s = .next t ∧ Frame (· = .v x) s t ∧
      ∀ b < 8, (t.getV x).getLsbD b = ((s.getV x).getLsbD b ^^ (s.getV y).getLsbD b))

/-- `8xy4`, `8xy5`, `8xy7`: the wrapped result in `V[x]` unless `x` is VF, and the flag in VF always (R136, R137, R139, R142). -/
def Obligations.AddSubtractAndFlag : Prop :=
  ∀ (s : State) (x y : Reg),
    (∃ t, exec (.addVxVy x y) s = .next t ∧
      (x ≠ VF → (t.getV x).toNat = ((s.getV x).toNat + (s.getV y).toNat) % 256) ∧
      (t.getV VF).toNat = (if 255 < (s.getV x).toNat + (s.getV y).toNat then 1 else 0) ∧
      Frame (fun p => p = .v x ∨ p = .v VF) s t) ∧
    (∃ t, exec (.sub x y) s = .next t ∧
      (x ≠ VF → ((t.getV x).toNat : Int) = ((s.getV x).toNat - (s.getV y).toNat : Int) % 256) ∧
      (t.getV VF).toNat = (if (s.getV y).toNat ≤ (s.getV x).toNat then 1 else 0) ∧
      Frame (fun p => p = .v x ∨ p = .v VF) s t) ∧
    (∃ t, exec (.subn x y) s = .next t ∧
      (x ≠ VF → ((t.getV x).toNat : Int) = ((s.getV y).toNat - (s.getV x).toNat : Int) % 256) ∧
      (t.getV VF).toNat = (if (s.getV x).toNat ≤ (s.getV y).toNat then 1 else 0) ∧
      Frame (fun p => p = .v x ∨ p = .v VF) s t)

/-- `8xy6` and `8xyE`: the shifted value in `V[x]` always, and the bit shifted out in VF unless `x` is VF; `y` is ignored
(R138, R140, R142). -/
def Obligations.ShiftsByOne : Prop :=
  ∀ (s : State) (x y : Reg),
    (∃ t, exec (.shr x y) s = .next t ∧ (t.getV x).toNat = (s.getV x).toNat / 2 ∧
      (x ≠ VF → (t.getV VF).toNat = (s.getV x).toNat % 2) ∧ Frame (fun p => p = .v x ∨ p = .v VF) s t) ∧
    (∃ t, exec (.shl x y) s = .next t ∧ (t.getV x).toNat = (s.getV x).toNat * 2 % 256 ∧
      (x ≠ VF → (t.getV VF).toNat = (s.getV x).toNat / 128) ∧ Frame (fun p => p = .v x ∨ p = .v VF) s t)

/-- `Cxkk`: the step's free byte masked by `kk`, whatever that byte is; each execution draws the next byte, which is the
model's own counter (R143; notes/assumptions/3). -/
def Obligations.RandomIsMasked : Prop :=
  ∀ (s : State) (x : Reg) (kk : Byte),
    ∃ t, exec (.rnd x kk) s = .next t ∧ t.draws = s.draws + 1 ∧ Frame (fun p => p = .v x ∨ p = .draws) s t ∧
      ∀ b < 8, (t.getV x).getLsbD b = ((Config.rand s.draws).getLsbD b && kk.getLsbD b)

/-! ### Index register, loads and stores -/

/-- `EA(off)` is `(I + off) mod 4096`, whether or not the sum is first wrapped to 16 bits (R56). -/
def Obligations.EffectiveAddressWraps : Prop :=
  ∀ (s : State) (off : Nat),
    (s.ea off).toNat = (s.index.toNat + off) % 4096 ∧ (s.ea off).toNat = (s.index.toNat + off) % 65536 % 4096

/-- `Annn`, `Fx1E`, `Fx29` write I and nothing else, VF included (R150, R151, R152). -/
def Obligations.IndexWrites : Prop :=
  ∀ (s : State) (x : Reg) (nnn : Addr),
    (∃ t, exec (.ldINnn nnn) s = .next t ∧ t.index.toNat = nnn.toNat ∧ Frame (· = .index) s t) ∧
    (∃ t, exec (.addIVx x) s = .next t ∧ t.index.toNat = (s.index.toNat + (s.getV x).toNat) % 65536 ∧
      Frame (· = .index) s t) ∧
    (∃ t, exec (.ldFVx x) s = .next t ∧ t.index.toNat = (s.getV x).toNat * 5 ∧ Frame (· = .index) s t)

/-- `Fx33` stores the three decimal digits at `EA(0)`, `EA(1)`, `EA(2)` and changes nothing else (R153). Memory is in its
canonical form, which every step keeps. -/
def Obligations.DecimalDigitsStored : Prop :=
  ∀ (s : State) (x : Reg), s.mem.wf = true →
    ∃ t, exec (.ldBVx x) s = .next t ∧
      (t.readByte (s.ea 0)).toNat = (s.getV x).toNat / 100 ∧
      (t.readByte (s.ea 1)).toNat = (s.getV x).toNat / 10 % 10 ∧
      (t.readByte (s.ea 2)).toNat = (s.getV x).toNat % 10 ∧
      Frame (fun p => p = .mem (s.ea 0) ∨ p = .mem (s.ea 1) ∨ p = .mem (s.ea 2)) s t

/-- `Fx55` stores `V[0]` to `V[x]` at `EA(0)` to `EA(x)` and changes nothing else, I included (R154). -/
def Obligations.RegistersStored : Prop :=
  ∀ (s : State) (x : Reg), s.mem.wf = true →
    ∃ t, exec (.ldMiVx x) s = .next t ∧
      (∀ r : Reg, r.toNat ≤ x.toNat → t.readByte (s.ea r.toNat) = s.getV r) ∧
      Frame (fun p => ∃ off, off ≤ x.toNat ∧ p = .mem (s.ea off)) s t

/-- `Fx65` loads `V[0]` to `V[x]` from `EA(0)` to `EA(x)` and changes nothing else, I included (R155). -/
def Obligations.RegistersLoaded : Prop :=
  ∀ (s : State) (x : Reg),
    ∃ t, exec (.ldVxMi x) s = .next t ∧
      (∀ r : Reg, r.toNat ≤ x.toNat → t.getV r = s.readByte (s.ea r.toNat)) ∧
      Frame (fun p => ∃ r : Reg, r.toNat ≤ x.toNat ∧ p = .v r) s t

/-- A store is seen by the next fetch with nothing in between: after a step that executes `Fx33` or `Fx55` the next step
fetches the following word with each of its bytes the one stored there, or the old one where none was stored (R62, P8). -/
def Obligations.StoreIsSeenByNextFetch : Prop :=
  ∀ (s : State) (i : Instr), s.mem.wf = true → s.executes i → (∃ x, i = .ldBVx x ∨ i = .ldMiVx x) →
    s.pc.toNat + 2 ≤ 0x0FFE →
    ∃ t hi lo, step s = .next t ∧ t.pc = s.pc + 2 ∧ t.fetches (wordOfBytes hi lo) ∧
      (∀ b, stores s i (s.pc.toNat + 2) b → hi = b) ∧
      ((∀ b, ¬ stores s i (s.pc.toNat + 2) b) → hi = s.mem.read (s.pc.toNat + 2)) ∧
      (∀ b, stores s i (s.pc.toNat + 3) b → lo = b) ∧
      ((∀ b, ¬ stores s i (s.pc.toNat + 3) b) → lo = s.mem.read (s.pc.toNat + 3))

/-! ### Display -/

/-- `00E0` clears all 2048 pixels and sets `DIRTY` whatever the picture was; VF and everything else stay (R171). -/
def Obligations.ClearScreen : Prop :=
  ∀ s : State, ∃ t, exec .cls s = .next t ∧ (∀ row col, t.fb.pixel row col = false) ∧ t.dirty = true ∧
    Frame (fun p => p = .dirty ∨ ∃ row col, p = .pixel row col) s t

/-- `Dxyn`: sprite pixel `(r, b)`, bit `7 - b` of the byte at `EA(r)`, is XORed on the pixel at row `(V[y] + r) mod 32` and
column `(V[x] + b) mod 64`, the target pixels are distinct, VF is 1 exactly if a sprite pixel of 1 met a lit pixel and else
0, `DIRTY` is set exactly if a sprite pixel is 1, and nothing else changes. The coordinates are the registers' values
before the instruction, VF's too (R170, R172, R173). -/
def Obligations.DrawSprite : Prop :=
  ∀ (s : State) (x y : Reg) (n : Nibble),
    let target (r b : Nat) (row : Fin 32) (col : Fin 64) : Prop :=
      r < n.toNat ∧ b < 8 ∧ row.val = ((s.getV y).toNat + r) % 32 ∧ col.val = ((s.getV x).toNat + b) % 64
    ∃ t, exec (.drw x y n) s = .next t ∧
      (∀ r b row col, target r b row col →
        t.fb.pixel row col = (s.fb.pixel row col ^^ (s.readByte (s.ea r)).getLsbD (7 - b))) ∧
      (∀ r b r' b' row col, target r b row col → target r' b' row col → r = r' ∧ b = b') ∧
      (t.getV VF = 0 ∨ t.getV VF = 1) ∧
      (t.getV VF = 1 ↔ ∃ r b row col, target r b row col ∧ (s.readByte (s.ea r)).getLsbD (7 - b) = true ∧
        s.fb.pixel row col = true) ∧
      (t.dirty = true ↔ s.dirty = true ∨ ∃ r, r < n.toNat ∧ s.readByte (s.ea r) ≠ 0) ∧
      Frame (fun p => p = .v VF ∨ p = .dirty ∨ ∃ r b row col, target r b row col ∧ p = .pixel row col) s t

/-- Drawing the same sprite twice restores the picture, and the second draw reports a collision exactly if the sprite has
a pixel of 1. `x` and `y` are not VF, whose value the first draw changes (R172). -/
def Obligations.DrawTwiceErases : Prop :=
  ∀ (s : State) (x y : Reg) (n : Nibble), x ≠ VF → y ≠ VF →
    ∃ t u, exec (.drw x y n) s = .next t ∧ exec (.drw x y n) t = .next u ∧ u.fb = s.fb ∧
      (u.getV VF = 1 ↔ ∃ r, r < n.toNat ∧ s.readByte (s.ea r) ≠ 0)

/-- `DIRTY` is set by exactly two events, `00E0` and a `Dxyn` that changes a pixel; no step clears it; and a step that ends
with `DIRTY` 0 leaves the picture as it was (R174). -/
def Obligations.DirtyTellsMutation : Prop :=
  ∀ s t : State, step s = .next t →
    (s.dirty = true → t.dirty = true) ∧
    (t.dirty = false → t.fb = s.fb) ∧
    (s.dirty = false → (t.dirty = true ↔
      s.executes .cls ∨ ((∃ x y n, s.executes (.drw x y n)) ∧ t.fb ≠ s.fb)))

/-! ### Keys and timers -/

/-- `Ex9E` and `ExA1` skip by the key whose index is the value of `V[x]`, or raise `KeyIndexRange` above 15; keys and
everything else stay (R190, R191, R192). -/
def Obligations.KeySkips : Prop :=
  ∀ (s : State) (x : Reg),
    (∀ k : Nibble, k.toNat = (s.getV x).toNat →
      (∃ t, exec (.skp x) s = .next t ∧ t.pc = (if s.keyPressed k then s.pc + 2 else s.pc) ∧ Frame (· = .pc) s t) ∧
      (∃ t, exec (.sknp x) s = .next t ∧ t.pc = (if s.keyPressed k then s.pc else s.pc + 2) ∧ Frame (· = .pc) s t)) ∧
    (15 < (s.getV x).toNat →
      (∃ t, exec (.skp x) s = .next t ∧ t.fault = .keyIndexRange ∧ t.pc = s.pc - 2 ∧ t.faultPc = s.pc - 2 ∧
        t.faultOp = encode (.skp x) ∧ Frame latchParts s t) ∧
      (∃ t, exec (.sknp x) s = .next t ∧ t.fault = .keyIndexRange ∧ t.pc = s.pc - 2 ∧ t.faultPc = s.pc - 2 ∧
        t.faultOp = encode (.sknp x) ∧ Frame latchParts s t))

/-- `Fx0A` stores the highest pressed key, or rewinds PC to itself when no key is pressed (R193). -/
def Obligations.WaitForKey : Prop :=
  ∀ (s : State) (x : Reg),
    (∀ k : Nibble, s.keyPressed k = true → (∀ j, s.keyPressed j = true → j.toNat ≤ k.toNat) →
      ∃ t, exec (.ldVxK x) s = .next t ∧ (t.getV x).toNat = k.toNat ∧ Frame (· = .v x) s t) ∧
    ((∀ k, s.keyPressed k = false) → ∃ t, exec (.ldVxK x) s = .next t ∧ t.pc = s.pc - 2 ∧ Frame (· = .pc) s t)

/-- `Fx07` reads DT, `Fx15` and `Fx18` write DT and ST, each changing nothing else in its execute phase; after the step a
timer just set is one lower, to a floor of 0; and no instruction reads ST: with another ST in its place every
instruction has the same effect on everything else (R194, R195, R196). -/
def Obligations.TimerTransfers : Prop :=
  ∀ (s : State) (x : Reg),
    (∃ t, exec (.ldVxDt x) s = .next t ∧ t.getV x = s.dt ∧ Frame (· = .v x) s t) ∧
    (∃ t, exec (.ldDtVx x) s = .next t ∧ t.dt = s.getV x ∧ Frame (· = .dt) s t) ∧
    (∃ t, exec (.ldStVx x) s = .next t ∧ t.st = s.getV x ∧ Frame (· = .st) s t) ∧
    (s.executes (.ldDtVx x) → ∃ t, step s = .next t ∧ t.dt.toNat = (s.getV x).toNat - 1) ∧
    (s.executes (.ldStVx x) → ∃ t, step s = .next t ∧ t.st.toNat = (s.getV x).toNat - 1) ∧
    (s.executes (.ldVxDt x) → ∃ t, step s = .next t ∧ t.getV x = s.dt ∧ t.dt.toNat = s.dt.toNat - 1) ∧
    (∀ (i : Instr) (b : Byte) (t : State), exec i s = .next t →
      ∃ t', exec i (s.setSt b) = .next t' ∧ Frame (· = .st) t t')

/-- A timer set to `v` is `max(0, v - 1 - k)` after the setting step and `k` further completed steps, none of which sets
it again (R197). -/
def Obligations.TimerCountsDown : Prop :=
  ∀ (s t u : State) (x : Reg) (k : Nat), step s = .next t →
    (s.executes (.ldDtVx x) →
      completedSteps (fun i => match i with | .ldDtVx _ => true | _ => false) k t u →
      u.dt.toNat = (s.getV x).toNat - 1 - k) ∧
    (s.executes (.ldStVx x) →
      completedSteps (fun i => match i with | .ldStVx _ => true | _ => false) k t u →
      u.st.toNat = (s.getV x).toNat - 1 - k)

/-! ### Whole-machine rules -/

/-- No instruction writes a piece of state that the table of R35 does not list for it; `Cxkk` also advances the model's
own counter of draws (notes/assumptions/3). -/
def Obligations.NothingWrittenOutsideTable : Prop :=
  ∀ (i : Instr) (s t : State), exec i s = .next t → Frame (writes s i) s t

/-- No instruction depends on a piece of state that the table of R35 does not list for it, but for two readings the model
adds: PC, in the six skips, `Fx0A` and `00EE`, which change it relative to its advanced value or put it back (R93, R213;
notes/assumptions/4), and the model's own counter of draws, in `Cxkk` (notes/assumptions/3). From two states that agree on
what it reads, each part ends equal in both or unchanged in both. Memory is in its canonical form in both, which every step
keeps. -/
def Obligations.NothingReadOutsideTable : Prop :=
  ∀ (i : Instr) (s s' t t' : State), s.mem.wf = true → s'.mem.wf = true → (∀ p, reads s i p → s.obs p = s'.obs p) →
    exec i s = .next t → exec i s' = .next t' →
    ∀ p, t.obs p = t'.obs p ∨ (t.obs p = s.obs p ∧ t'.obs p = s'.obs p)

/-- VF is the only flag: six instructions leave 0 or 1 in it when it is not their destination, and every other instruction
that does not name it as a destination leaves it alone (R21). -/
def Obligations.VfIsTheOnlyFlag : Prop :=
  ∀ (s t : State) (x y : Reg) (n : Nibble) (i : Instr), exec i s = .next t →
    (x ≠ VF → i ∈ [Instr.addVxVy x y, .sub x y, .shr x y, .subn x y, .shl x y] →
      t.getV VF = 0 ∨ t.getV VF = 1) ∧
    (i = .drw x y n → t.getV VF = 0 ∨ t.getV VF = 1) ∧
    (¬ writes s i (.v VF) → t.getV VF = s.getV VF)

/-- The keyboard is an input: no step writes a key flag, and none but a host command does (R26). -/
def Obligations.NoStepWritesAKey : Prop :=
  ∀ s t : State, step s = .next t → ∀ k, t.keyPressed k = s.keyPressed k

/-- The parts are the whole state: two states with canonical memory that agree on every part are equal (R20 to R31). One part, the counter of draws, is the model's own (notes/assumptions/3). -/
def Obligations.PartsDetermineState : Prop :=
  ∀ s t : State, s.mem.wf = true → t.mem.wf = true → (∀ p, s.obs p = t.obs p) → s = t

/-- A run that ended stays ended: the step from a jump to its own address changes nothing but the timers. `RUN_END` is the
model's choice (R101; notes/assumptions/7). -/
def Obligations.EndedRunStaysEnded : Prop :=
  ∀ s : State, s.runEnded →
    ∃ t, step s = .next t ∧ t.runEnded ∧ Frame (fun p => p = .dt ∨ p = .st) s t

/-- The terms in which `writes` and `reads` name the pixels and bits of a sprite: row `(V[y] + r) mod 32`, column
`(V[x] + b) mod 64`, and bit `7 - b`, the most significant bit leftmost (R170). -/
def Obligations.SpriteGeometry : Prop :=
  ∀ (vx vy byte : Byte) (r b : Nat),
    (spriteRow vy r).val = (vy.toNat + r) % 32 ∧ (spriteCol vx b).val = (vx.toNat + b) % 64 ∧
      spriteBit byte b = byte.getLsbD (7 - b)
end

