-- ==== Sys2Proof/Laws/Memory.lean ====
section
/-! SUPPORT. The laws of memory: a read after a write, and that every operation keeps the canonical form. -/

namespace Sys2Proof.Machine

/-! ### Reads after writes -/

theorem Memory.read_write_ne {a a' : Nat} (h : a' ≠ a) (b : Byte) (m : Memory) :
    (m.write a b).read a' = m.read a' := by
  induction m with
  | nil =>
    unfold Memory.write
    split <;> simp [Memory.read, Ne.symm h]
  | cons e m ih =>
    obtain ⟨k, c⟩ := e
    simp only [Memory.write]
    split
    · split <;> simp [Memory.read, Ne.symm h]
    · split
      · next hk => subst hk; split <;> simp [Memory.read, Ne.symm h]
      · simp [Memory.read, ih]

/-- Below its first address, memory in canonical form reads as unlisted. -/
theorem Memory.read_of_lt {lo a : Nat} {m : Memory} (hm : Memory.wfFrom lo m = true) (h : a < lo) :
    m.read a = Memory.unlisted a := by
  induction m generalizing lo with
  | nil => rfl
  | cons e m ih =>
    obtain ⟨k, c⟩ := e
    simp only [Memory.wfFrom, Bool.and_eq_true, decide_eq_true_eq] at hm
    have hne : k ≠ a := by omega
    simp only [Memory.read, hne, if_false]
    exact ih hm.2 (by omega)

theorem Memory.read_write_same_from {lo a : Nat} (b : Byte) {m : Memory} (hm : Memory.wfFrom lo m = true) :
    (m.write a b).read a = b := by
  induction m generalizing lo with
  | nil => unfold Memory.write; split <;> simp_all [Memory.read]
  | cons e m ih =>
    obtain ⟨k, c⟩ := e
    simp only [Memory.wfFrom, Bool.and_eq_true, decide_eq_true_eq] at hm
    simp only [Memory.write]
    split
    · split
      · next hlt hb =>
        have hne : k ≠ a := by omega
        simp only [Memory.read, hne, if_false]
        rw [Memory.read_of_lt hm.2 (by omega), hb]
      · simp [Memory.read]
    · split
      · next hk =>
        split
        · next hb => rw [Memory.read_of_lt hm.2 (by omega), hb]
        · simp [Memory.read]
      · next hlt hk =>
        have hne : k ≠ a := fun e => hk e.symm
        simp only [Memory.read, hne, if_false]
        exact ih hm.2

/-- Reading the byte just written gives it, in memory of canonical form. -/
theorem Memory.read_write_same {a : Nat} (b : Byte) {m : Memory} (hm : m.wf = true) : (m.write a b).read a = b :=
  Memory.read_write_same_from b hm

/-! ### The canonical form -/

theorem Memory.wfFrom_mono {lo lo' : Nat} (h : lo' ≤ lo) {m : Memory} (hm : Memory.wfFrom lo m = true) :
    Memory.wfFrom lo' m = true := by
  cases m with
  | nil => rfl
  | cons e m =>
    obtain ⟨k, c⟩ := e
    simp only [Memory.wfFrom, Bool.and_eq_true, decide_eq_true_eq] at hm ⊢
    exact ⟨⟨⟨by omega, hm.1.1.2⟩, hm.1.2⟩, hm.2⟩

theorem Memory.wfFrom_write {lo a : Nat} (b : Byte) (hlo : lo ≤ a) (ha : a < Config.memSize) {m : Memory}
    (hm : Memory.wfFrom lo m = true) : Memory.wfFrom lo (m.write a b) = true := by
  induction m generalizing lo with
  | nil => unfold Memory.write; split <;> simp_all [Memory.wfFrom]
  | cons e m ih =>
    obtain ⟨k, c⟩ := e
    have hm' := hm
    simp only [Memory.wfFrom, Bool.and_eq_true, decide_eq_true_eq, bne_iff_ne] at hm'
    obtain ⟨⟨⟨hk, hk'⟩, hc⟩, hrest⟩ := hm'
    simp only [Memory.write]
    split
    · split
      · exact hm
      · simp only [Memory.wfFrom, Bool.and_eq_true, decide_eq_true_eq, bne_iff_ne]
        exact ⟨⟨⟨hlo, ha⟩, ‹_›⟩, ⟨⟨by omega, hk'⟩, hc⟩, hrest⟩
    · split
      · next he =>
        subst he
        split
        · exact Memory.wfFrom_mono (by omega) hrest
        · simp only [Memory.wfFrom, Bool.and_eq_true, decide_eq_true_eq, bne_iff_ne]
          exact ⟨⟨⟨hlo, ha⟩, ‹_›⟩, hrest⟩
      · simp only [Memory.wfFrom, Bool.and_eq_true, decide_eq_true_eq, bne_iff_ne]
        exact ⟨⟨⟨hk, hk'⟩, hc⟩, ih (by omega) hrest⟩

/-- A write inside the 4096 bytes keeps the canonical form. -/
theorem Memory.wf_write {a : Nat} (b : Byte) (ha : a < Config.memSize) {m : Memory} (hm : m.wf = true) :
    (m.write a b).wf = true :=
  Memory.wfFrom_write b (Nat.zero_le a) ha hm

/-- A sequence of writes inside the 4096 bytes keeps the canonical form. -/
theorem Memory.wf_writeList {a : Nat} {m : Memory} (bs : List Byte) (ha : a + bs.length ≤ Config.memSize)
    (hm : m.wf = true) : (m.writeList a bs).wf = true := by
  induction bs generalizing a m with
  | nil => exact hm
  | cons b bs ih =>
    simp only [List.length_cons] at ha
    exact ih (by omega) (Memory.wf_write b (by omega) hm)

/-- Memory after reset is in canonical form. -/
theorem Memory.wf_reset : State.reset.mem.wf = true := rfl

/-- Memory after reset with any `FONT` is in canonical form. -/
theorem Memory.wf_withFont (font : Font) : (Memory.withFont font).wf = true :=
  Memory.wf_writeList font.bytes (by rw [font.length_bytes]; decide) Memory.wf_reset

theorem State.writeByte_wf {s : State} (a : Addr) (b : Byte) (hm : s.mem.wf = true) : (s.writeByte a b).mem.wf = true :=
  Memory.wf_write b a.isLt hm

/-- The bytes stored by `Fx55` keep the canonical form. -/
theorem State.storeRegs_wf {s : State} (x : Reg) (hm : s.mem.wf = true) : (s.storeRegs x).mem.wf = true := by
  have key : ∀ (l : List Nat) (t : State), t.mem.wf = true →
      (l.foldl (fun t i => t.writeByte (s.ea i) (s.getV (BitVec.ofNat 4 i))) t).mem.wf = true := by
    intro l
    induction l with
    | nil => exact fun _ h => h
    | cons i l ih => exact fun t h => ih _ (State.writeByte_wf _ _ h)
  exact key _ s hm

/-- The word `withFetchWord` places keeps the canonical form. -/
theorem State.placeWord_wf {s : State} (op : Word) (hm : s.mem.wf = true) : (s.placeWord op).mem.wf = true :=
  State.writeByte_wf _ _ (State.writeByte_wf _ _ hm)

/-! ### Byte access through the state -/

theorem State.readByte_writeByte_same {s : State} (a : Addr) (b : Byte) (hm : s.mem.wf = true) :
    (s.writeByte a b).readByte a = b :=
  Memory.read_write_same b hm

theorem State.readByte_writeByte_ne (s : State) {a a' : Addr} (h : a' ≠ a) (b : Byte) :
    (s.writeByte a b).readByte a' = s.readByte a' :=
  Memory.read_write_ne (fun e => h (BitVec.eq_of_toNat_eq e)) b s.mem

end Sys2Proof.Machine
end

