-- ==== Sys2Proof/Laws/State.lean ====
section
/-! SUPPORT. One lemma per field per update of the state, so that no later proof unfolds a record update. -/

namespace Sys2Proof.Machine

variable (s : State)

/-! ### `setV` -/

@[simp] theorem State.setV_v (r : Reg) (b : Byte) : (s.setV r b).v = s.v.set r.toNat b r.isLt := rfl
@[simp] theorem State.setV_index (r : Reg) (b : Byte) : (s.setV r b).index = s.index := rfl
@[simp] theorem State.setV_pc (r : Reg) (b : Byte) : (s.setV r b).pc = s.pc := rfl
@[simp] theorem State.setV_sp (r : Reg) (b : Byte) : (s.setV r b).sp = s.sp := rfl
@[simp] theorem State.setV_stack (r : Reg) (b : Byte) : (s.setV r b).stack = s.stack := rfl
@[simp] theorem State.setV_dt (r : Reg) (b : Byte) : (s.setV r b).dt = s.dt := rfl
@[simp] theorem State.setV_st (r : Reg) (b : Byte) : (s.setV r b).st = s.st := rfl
@[simp] theorem State.setV_keys (r : Reg) (b : Byte) : (s.setV r b).keys = s.keys := rfl
@[simp] theorem State.setV_fb (r : Reg) (b : Byte) : (s.setV r b).fb = s.fb := rfl
@[simp] theorem State.setV_dirty (r : Reg) (b : Byte) : (s.setV r b).dirty = s.dirty := rfl
@[simp] theorem State.setV_fault (r : Reg) (b : Byte) : (s.setV r b).fault = s.fault := rfl
@[simp] theorem State.setV_faultPc (r : Reg) (b : Byte) : (s.setV r b).faultPc = s.faultPc := rfl
@[simp] theorem State.setV_faultOp (r : Reg) (b : Byte) : (s.setV r b).faultOp = s.faultOp := rfl
@[simp] theorem State.setV_mem (r : Reg) (b : Byte) : (s.setV r b).mem = s.mem := rfl
@[simp] theorem State.setV_draws (r : Reg) (b : Byte) : (s.setV r b).draws = s.draws := rfl

/-! ### `setIndex` -/

@[simp] theorem State.setIndex_v (w : Word) : (s.setIndex w).v = s.v := rfl
@[simp] theorem State.setIndex_index (w : Word) : (s.setIndex w).index = w := rfl
@[simp] theorem State.setIndex_pc (w : Word) : (s.setIndex w).pc = s.pc := rfl
@[simp] theorem State.setIndex_sp (w : Word) : (s.setIndex w).sp = s.sp := rfl
@[simp] theorem State.setIndex_stack (w : Word) : (s.setIndex w).stack = s.stack := rfl
@[simp] theorem State.setIndex_dt (w : Word) : (s.setIndex w).dt = s.dt := rfl
@[simp] theorem State.setIndex_st (w : Word) : (s.setIndex w).st = s.st := rfl
@[simp] theorem State.setIndex_keys (w : Word) : (s.setIndex w).keys = s.keys := rfl
@[simp] theorem State.setIndex_fb (w : Word) : (s.setIndex w).fb = s.fb := rfl
@[simp] theorem State.setIndex_dirty (w : Word) : (s.setIndex w).dirty = s.dirty := rfl
@[simp] theorem State.setIndex_fault (w : Word) : (s.setIndex w).fault = s.fault := rfl
@[simp] theorem State.setIndex_faultPc (w : Word) : (s.setIndex w).faultPc = s.faultPc := rfl
@[simp] theorem State.setIndex_faultOp (w : Word) : (s.setIndex w).faultOp = s.faultOp := rfl
@[simp] theorem State.setIndex_mem (w : Word) : (s.setIndex w).mem = s.mem := rfl
@[simp] theorem State.setIndex_draws (w : Word) : (s.setIndex w).draws = s.draws := rfl

/-! ### `setPc` -/

@[simp] theorem State.setPc_v (w : Word) : (s.setPc w).v = s.v := rfl
@[simp] theorem State.setPc_index (w : Word) : (s.setPc w).index = s.index := rfl
@[simp] theorem State.setPc_pc (w : Word) : (s.setPc w).pc = w := rfl
@[simp] theorem State.setPc_sp (w : Word) : (s.setPc w).sp = s.sp := rfl
@[simp] theorem State.setPc_stack (w : Word) : (s.setPc w).stack = s.stack := rfl
@[simp] theorem State.setPc_dt (w : Word) : (s.setPc w).dt = s.dt := rfl
@[simp] theorem State.setPc_st (w : Word) : (s.setPc w).st = s.st := rfl
@[simp] theorem State.setPc_keys (w : Word) : (s.setPc w).keys = s.keys := rfl
@[simp] theorem State.setPc_fb (w : Word) : (s.setPc w).fb = s.fb := rfl
@[simp] theorem State.setPc_dirty (w : Word) : (s.setPc w).dirty = s.dirty := rfl
@[simp] theorem State.setPc_fault (w : Word) : (s.setPc w).fault = s.fault := rfl
@[simp] theorem State.setPc_faultPc (w : Word) : (s.setPc w).faultPc = s.faultPc := rfl
@[simp] theorem State.setPc_faultOp (w : Word) : (s.setPc w).faultOp = s.faultOp := rfl
@[simp] theorem State.setPc_mem (w : Word) : (s.setPc w).mem = s.mem := rfl
@[simp] theorem State.setPc_draws (w : Word) : (s.setPc w).draws = s.draws := rfl

/-! ### `setDt` -/

@[simp] theorem State.setDt_v (b : Byte) : (s.setDt b).v = s.v := rfl
@[simp] theorem State.setDt_index (b : Byte) : (s.setDt b).index = s.index := rfl
@[simp] theorem State.setDt_pc (b : Byte) : (s.setDt b).pc = s.pc := rfl
@[simp] theorem State.setDt_sp (b : Byte) : (s.setDt b).sp = s.sp := rfl
@[simp] theorem State.setDt_stack (b : Byte) : (s.setDt b).stack = s.stack := rfl
@[simp] theorem State.setDt_dt (b : Byte) : (s.setDt b).dt = b := rfl
@[simp] theorem State.setDt_st (b : Byte) : (s.setDt b).st = s.st := rfl
@[simp] theorem State.setDt_keys (b : Byte) : (s.setDt b).keys = s.keys := rfl
@[simp] theorem State.setDt_fb (b : Byte) : (s.setDt b).fb = s.fb := rfl
@[simp] theorem State.setDt_dirty (b : Byte) : (s.setDt b).dirty = s.dirty := rfl
@[simp] theorem State.setDt_fault (b : Byte) : (s.setDt b).fault = s.fault := rfl
@[simp] theorem State.setDt_faultPc (b : Byte) : (s.setDt b).faultPc = s.faultPc := rfl
@[simp] theorem State.setDt_faultOp (b : Byte) : (s.setDt b).faultOp = s.faultOp := rfl
@[simp] theorem State.setDt_mem (b : Byte) : (s.setDt b).mem = s.mem := rfl
@[simp] theorem State.setDt_draws (b : Byte) : (s.setDt b).draws = s.draws := rfl

/-! ### `setSt` -/

@[simp] theorem State.setSt_v (b : Byte) : (s.setSt b).v = s.v := rfl
@[simp] theorem State.setSt_index (b : Byte) : (s.setSt b).index = s.index := rfl
@[simp] theorem State.setSt_pc (b : Byte) : (s.setSt b).pc = s.pc := rfl
@[simp] theorem State.setSt_sp (b : Byte) : (s.setSt b).sp = s.sp := rfl
@[simp] theorem State.setSt_stack (b : Byte) : (s.setSt b).stack = s.stack := rfl
@[simp] theorem State.setSt_dt (b : Byte) : (s.setSt b).dt = s.dt := rfl
@[simp] theorem State.setSt_st (b : Byte) : (s.setSt b).st = b := rfl
@[simp] theorem State.setSt_keys (b : Byte) : (s.setSt b).keys = s.keys := rfl
@[simp] theorem State.setSt_fb (b : Byte) : (s.setSt b).fb = s.fb := rfl
@[simp] theorem State.setSt_dirty (b : Byte) : (s.setSt b).dirty = s.dirty := rfl
@[simp] theorem State.setSt_fault (b : Byte) : (s.setSt b).fault = s.fault := rfl
@[simp] theorem State.setSt_faultPc (b : Byte) : (s.setSt b).faultPc = s.faultPc := rfl
@[simp] theorem State.setSt_faultOp (b : Byte) : (s.setSt b).faultOp = s.faultOp := rfl
@[simp] theorem State.setSt_mem (b : Byte) : (s.setSt b).mem = s.mem := rfl
@[simp] theorem State.setSt_draws (b : Byte) : (s.setSt b).draws = s.draws := rfl

/-! ### `setKey` -/

@[simp] theorem State.setKey_v (k : Nibble) (p : Bool) : (s.setKey k p).v = s.v := rfl
@[simp] theorem State.setKey_index (k : Nibble) (p : Bool) : (s.setKey k p).index = s.index := rfl
@[simp] theorem State.setKey_pc (k : Nibble) (p : Bool) : (s.setKey k p).pc = s.pc := rfl
@[simp] theorem State.setKey_sp (k : Nibble) (p : Bool) : (s.setKey k p).sp = s.sp := rfl
@[simp] theorem State.setKey_stack (k : Nibble) (p : Bool) : (s.setKey k p).stack = s.stack := rfl
@[simp] theorem State.setKey_dt (k : Nibble) (p : Bool) : (s.setKey k p).dt = s.dt := rfl
@[simp] theorem State.setKey_st (k : Nibble) (p : Bool) : (s.setKey k p).st = s.st := rfl
@[simp] theorem State.setKey_keys (k : Nibble) (p : Bool) : (s.setKey k p).keys = s.keys.set k.toNat p k.isLt := rfl
@[simp] theorem State.setKey_fb (k : Nibble) (p : Bool) : (s.setKey k p).fb = s.fb := rfl
@[simp] theorem State.setKey_dirty (k : Nibble) (p : Bool) : (s.setKey k p).dirty = s.dirty := rfl
@[simp] theorem State.setKey_fault (k : Nibble) (p : Bool) : (s.setKey k p).fault = s.fault := rfl
@[simp] theorem State.setKey_faultPc (k : Nibble) (p : Bool) : (s.setKey k p).faultPc = s.faultPc := rfl
@[simp] theorem State.setKey_faultOp (k : Nibble) (p : Bool) : (s.setKey k p).faultOp = s.faultOp := rfl
@[simp] theorem State.setKey_mem (k : Nibble) (p : Bool) : (s.setKey k p).mem = s.mem := rfl
@[simp] theorem State.setKey_draws (k : Nibble) (p : Bool) : (s.setKey k p).draws = s.draws := rfl

/-! ### `setPicture` -/

@[simp] theorem State.setPicture_v (fb : Framebuffer) (m : Bool) : (s.setPicture fb m).v = s.v := rfl
@[simp] theorem State.setPicture_index (fb : Framebuffer) (m : Bool) : (s.setPicture fb m).index = s.index := rfl
@[simp] theorem State.setPicture_pc (fb : Framebuffer) (m : Bool) : (s.setPicture fb m).pc = s.pc := rfl
@[simp] theorem State.setPicture_sp (fb : Framebuffer) (m : Bool) : (s.setPicture fb m).sp = s.sp := rfl
@[simp] theorem State.setPicture_stack (fb : Framebuffer) (m : Bool) : (s.setPicture fb m).stack = s.stack := rfl
@[simp] theorem State.setPicture_dt (fb : Framebuffer) (m : Bool) : (s.setPicture fb m).dt = s.dt := rfl
@[simp] theorem State.setPicture_st (fb : Framebuffer) (m : Bool) : (s.setPicture fb m).st = s.st := rfl
@[simp] theorem State.setPicture_keys (fb : Framebuffer) (m : Bool) : (s.setPicture fb m).keys = s.keys := rfl
@[simp] theorem State.setPicture_fb (fb : Framebuffer) (m : Bool) : (s.setPicture fb m).fb = fb := rfl
@[simp] theorem State.setPicture_dirty (fb : Framebuffer) (m : Bool) : (s.setPicture fb m).dirty = (s.dirty || m) := rfl
@[simp] theorem State.setPicture_fault (fb : Framebuffer) (m : Bool) : (s.setPicture fb m).fault = s.fault := rfl
@[simp] theorem State.setPicture_faultPc (fb : Framebuffer) (m : Bool) : (s.setPicture fb m).faultPc = s.faultPc := rfl
@[simp] theorem State.setPicture_faultOp (fb : Framebuffer) (m : Bool) : (s.setPicture fb m).faultOp = s.faultOp := rfl
@[simp] theorem State.setPicture_mem (fb : Framebuffer) (m : Bool) : (s.setPicture fb m).mem = s.mem := rfl
@[simp] theorem State.setPicture_draws (fb : Framebuffer) (m : Bool) : (s.setPicture fb m).draws = s.draws := rfl

/-! ### `writeByte` -/

@[simp] theorem State.writeByte_v (a : Addr) (b : Byte) : (s.writeByte a b).v = s.v := rfl
@[simp] theorem State.writeByte_index (a : Addr) (b : Byte) : (s.writeByte a b).index = s.index := rfl
@[simp] theorem State.writeByte_pc (a : Addr) (b : Byte) : (s.writeByte a b).pc = s.pc := rfl
@[simp] theorem State.writeByte_sp (a : Addr) (b : Byte) : (s.writeByte a b).sp = s.sp := rfl
@[simp] theorem State.writeByte_stack (a : Addr) (b : Byte) : (s.writeByte a b).stack = s.stack := rfl
@[simp] theorem State.writeByte_dt (a : Addr) (b : Byte) : (s.writeByte a b).dt = s.dt := rfl
@[simp] theorem State.writeByte_st (a : Addr) (b : Byte) : (s.writeByte a b).st = s.st := rfl
@[simp] theorem State.writeByte_keys (a : Addr) (b : Byte) : (s.writeByte a b).keys = s.keys := rfl
@[simp] theorem State.writeByte_fb (a : Addr) (b : Byte) : (s.writeByte a b).fb = s.fb := rfl
@[simp] theorem State.writeByte_dirty (a : Addr) (b : Byte) : (s.writeByte a b).dirty = s.dirty := rfl
@[simp] theorem State.writeByte_fault (a : Addr) (b : Byte) : (s.writeByte a b).fault = s.fault := rfl
@[simp] theorem State.writeByte_faultPc (a : Addr) (b : Byte) : (s.writeByte a b).faultPc = s.faultPc := rfl
@[simp] theorem State.writeByte_faultOp (a : Addr) (b : Byte) : (s.writeByte a b).faultOp = s.faultOp := rfl
@[simp] theorem State.writeByte_mem (a : Addr) (b : Byte) : (s.writeByte a b).mem = s.mem.write a.toNat b := rfl
@[simp] theorem State.writeByte_draws (a : Addr) (b : Byte) : (s.writeByte a b).draws = s.draws := rfl

/-! ### `raise` -/

@[simp] theorem State.raise_v (c : FaultCause) (pc0 op : Word) : (s.raise c pc0 op).v = s.v := rfl
@[simp] theorem State.raise_index (c : FaultCause) (pc0 op : Word) : (s.raise c pc0 op).index = s.index := rfl
@[simp] theorem State.raise_pc (c : FaultCause) (pc0 op : Word) : (s.raise c pc0 op).pc = pc0 := rfl
@[simp] theorem State.raise_sp (c : FaultCause) (pc0 op : Word) : (s.raise c pc0 op).sp = s.sp := rfl
@[simp] theorem State.raise_stack (c : FaultCause) (pc0 op : Word) : (s.raise c pc0 op).stack = s.stack := rfl
@[simp] theorem State.raise_dt (c : FaultCause) (pc0 op : Word) : (s.raise c pc0 op).dt = s.dt := rfl
@[simp] theorem State.raise_st (c : FaultCause) (pc0 op : Word) : (s.raise c pc0 op).st = s.st := rfl
@[simp] theorem State.raise_keys (c : FaultCause) (pc0 op : Word) : (s.raise c pc0 op).keys = s.keys := rfl
@[simp] theorem State.raise_fb (c : FaultCause) (pc0 op : Word) : (s.raise c pc0 op).fb = s.fb := rfl
@[simp] theorem State.raise_dirty (c : FaultCause) (pc0 op : Word) : (s.raise c pc0 op).dirty = s.dirty := rfl
@[simp] theorem State.raise_fault (c : FaultCause) (pc0 op : Word) : (s.raise c pc0 op).fault = c := rfl
@[simp] theorem State.raise_faultPc (c : FaultCause) (pc0 op : Word) : (s.raise c pc0 op).faultPc = pc0 := rfl
@[simp] theorem State.raise_faultOp (c : FaultCause) (pc0 op : Word) : (s.raise c pc0 op).faultOp = op := rfl
@[simp] theorem State.raise_mem (c : FaultCause) (pc0 op : Word) : (s.raise c pc0 op).mem = s.mem := rfl
@[simp] theorem State.raise_draws (c : FaultCause) (pc0 op : Word) : (s.raise c pc0 op).draws = s.draws := rfl

/-! ### `raiseInstr` -/

@[simp] theorem State.raiseInstr_v (c : FaultCause) (op : Word) : (s.raiseInstr c op).v = s.v := rfl
@[simp] theorem State.raiseInstr_index (c : FaultCause) (op : Word) : (s.raiseInstr c op).index = s.index := rfl
@[simp] theorem State.raiseInstr_pc (c : FaultCause) (op : Word) : (s.raiseInstr c op).pc = s.pc0 := rfl
@[simp] theorem State.raiseInstr_sp (c : FaultCause) (op : Word) : (s.raiseInstr c op).sp = s.sp := rfl
@[simp] theorem State.raiseInstr_stack (c : FaultCause) (op : Word) : (s.raiseInstr c op).stack = s.stack := rfl
@[simp] theorem State.raiseInstr_dt (c : FaultCause) (op : Word) : (s.raiseInstr c op).dt = s.dt := rfl
@[simp] theorem State.raiseInstr_st (c : FaultCause) (op : Word) : (s.raiseInstr c op).st = s.st := rfl
@[simp] theorem State.raiseInstr_keys (c : FaultCause) (op : Word) : (s.raiseInstr c op).keys = s.keys := rfl
@[simp] theorem State.raiseInstr_fb (c : FaultCause) (op : Word) : (s.raiseInstr c op).fb = s.fb := rfl
@[simp] theorem State.raiseInstr_dirty (c : FaultCause) (op : Word) : (s.raiseInstr c op).dirty = s.dirty := rfl
@[simp] theorem State.raiseInstr_fault (c : FaultCause) (op : Word) : (s.raiseInstr c op).fault = c := rfl
@[simp] theorem State.raiseInstr_faultPc (c : FaultCause) (op : Word) : (s.raiseInstr c op).faultPc = s.pc0 := rfl
@[simp] theorem State.raiseInstr_faultOp (c : FaultCause) (op : Word) : (s.raiseInstr c op).faultOp = op := rfl
@[simp] theorem State.raiseInstr_mem (c : FaultCause) (op : Word) : (s.raiseInstr c op).mem = s.mem := rfl
@[simp] theorem State.raiseInstr_draws (c : FaultCause) (op : Word) : (s.raiseInstr c op).draws = s.draws := rfl

/-! ### `advance` -/

@[simp] theorem State.advance_v : (s.advance).v = s.v := rfl
@[simp] theorem State.advance_index : (s.advance).index = s.index := rfl
@[simp] theorem State.advance_pc : (s.advance).pc = s.pc + 2 := rfl
@[simp] theorem State.advance_sp : (s.advance).sp = s.sp := rfl
@[simp] theorem State.advance_stack : (s.advance).stack = s.stack := rfl
@[simp] theorem State.advance_dt : (s.advance).dt = s.dt := rfl
@[simp] theorem State.advance_st : (s.advance).st = s.st := rfl
@[simp] theorem State.advance_keys : (s.advance).keys = s.keys := rfl
@[simp] theorem State.advance_fb : (s.advance).fb = s.fb := rfl
@[simp] theorem State.advance_dirty : (s.advance).dirty = s.dirty := rfl
@[simp] theorem State.advance_fault : (s.advance).fault = s.fault := rfl
@[simp] theorem State.advance_faultPc : (s.advance).faultPc = s.faultPc := rfl
@[simp] theorem State.advance_faultOp : (s.advance).faultOp = s.faultOp := rfl
@[simp] theorem State.advance_mem : (s.advance).mem = s.mem := rfl
@[simp] theorem State.advance_draws : (s.advance).draws = s.draws := rfl

/-! ### `skipIf` -/

@[simp] theorem State.skipIf_v (c : Bool) : (s.skipIf c).v = s.v := rfl
@[simp] theorem State.skipIf_index (c : Bool) : (s.skipIf c).index = s.index := rfl
@[simp] theorem State.skipIf_pc (c : Bool) : (s.skipIf c).pc = if c then s.pc + 2 else s.pc := rfl
@[simp] theorem State.skipIf_sp (c : Bool) : (s.skipIf c).sp = s.sp := rfl
@[simp] theorem State.skipIf_stack (c : Bool) : (s.skipIf c).stack = s.stack := rfl
@[simp] theorem State.skipIf_dt (c : Bool) : (s.skipIf c).dt = s.dt := rfl
@[simp] theorem State.skipIf_st (c : Bool) : (s.skipIf c).st = s.st := rfl
@[simp] theorem State.skipIf_keys (c : Bool) : (s.skipIf c).keys = s.keys := rfl
@[simp] theorem State.skipIf_fb (c : Bool) : (s.skipIf c).fb = s.fb := rfl
@[simp] theorem State.skipIf_dirty (c : Bool) : (s.skipIf c).dirty = s.dirty := rfl
@[simp] theorem State.skipIf_fault (c : Bool) : (s.skipIf c).fault = s.fault := rfl
@[simp] theorem State.skipIf_faultPc (c : Bool) : (s.skipIf c).faultPc = s.faultPc := rfl
@[simp] theorem State.skipIf_faultOp (c : Bool) : (s.skipIf c).faultOp = s.faultOp := rfl
@[simp] theorem State.skipIf_mem (c : Bool) : (s.skipIf c).mem = s.mem := rfl
@[simp] theorem State.skipIf_draws (c : Bool) : (s.skipIf c).draws = s.draws := rfl

/-! ### `tick` -/

@[simp] theorem State.tick_v : (s.tick).v = s.v := rfl
@[simp] theorem State.tick_index : (s.tick).index = s.index := rfl
@[simp] theorem State.tick_pc : (s.tick).pc = s.pc := rfl
@[simp] theorem State.tick_sp : (s.tick).sp = s.sp := rfl
@[simp] theorem State.tick_stack : (s.tick).stack = s.stack := rfl
@[simp] theorem State.tick_dt : (s.tick).dt = timerTick s.dt := rfl
@[simp] theorem State.tick_st : (s.tick).st = timerTick s.st := rfl
@[simp] theorem State.tick_keys : (s.tick).keys = s.keys := rfl
@[simp] theorem State.tick_fb : (s.tick).fb = s.fb := rfl
@[simp] theorem State.tick_dirty : (s.tick).dirty = s.dirty := rfl
@[simp] theorem State.tick_fault : (s.tick).fault = s.fault := rfl
@[simp] theorem State.tick_faultPc : (s.tick).faultPc = s.faultPc := rfl
@[simp] theorem State.tick_faultOp : (s.tick).faultOp = s.faultOp := rfl
@[simp] theorem State.tick_mem : (s.tick).mem = s.mem := rfl
@[simp] theorem State.tick_draws : (s.tick).draws = s.draws := rfl

/-! ### `setFlag` -/

@[simp] theorem State.setFlag_v (f : Bool) : (s.setFlag f).v = s.v.set 15 (flagByte f) (by omega) := rfl
@[simp] theorem State.setFlag_index (f : Bool) : (s.setFlag f).index = s.index := rfl
@[simp] theorem State.setFlag_pc (f : Bool) : (s.setFlag f).pc = s.pc := rfl
@[simp] theorem State.setFlag_sp (f : Bool) : (s.setFlag f).sp = s.sp := rfl
@[simp] theorem State.setFlag_stack (f : Bool) : (s.setFlag f).stack = s.stack := rfl
@[simp] theorem State.setFlag_dt (f : Bool) : (s.setFlag f).dt = s.dt := rfl
@[simp] theorem State.setFlag_st (f : Bool) : (s.setFlag f).st = s.st := rfl
@[simp] theorem State.setFlag_keys (f : Bool) : (s.setFlag f).keys = s.keys := rfl
@[simp] theorem State.setFlag_fb (f : Bool) : (s.setFlag f).fb = s.fb := rfl
@[simp] theorem State.setFlag_dirty (f : Bool) : (s.setFlag f).dirty = s.dirty := rfl
@[simp] theorem State.setFlag_fault (f : Bool) : (s.setFlag f).fault = s.fault := rfl
@[simp] theorem State.setFlag_faultPc (f : Bool) : (s.setFlag f).faultPc = s.faultPc := rfl
@[simp] theorem State.setFlag_faultOp (f : Bool) : (s.setFlag f).faultOp = s.faultOp := rfl
@[simp] theorem State.setFlag_mem (f : Bool) : (s.setFlag f).mem = s.mem := rfl
@[simp] theorem State.setFlag_draws (f : Bool) : (s.setFlag f).draws = s.draws := rfl

/-! ### `afterDraw` -/

@[simp] theorem State.afterDraw_v : (s.afterDraw).v = s.v := rfl
@[simp] theorem State.afterDraw_index : (s.afterDraw).index = s.index := rfl
@[simp] theorem State.afterDraw_pc : (s.afterDraw).pc = s.pc := rfl
@[simp] theorem State.afterDraw_sp : (s.afterDraw).sp = s.sp := rfl
@[simp] theorem State.afterDraw_stack : (s.afterDraw).stack = s.stack := rfl
@[simp] theorem State.afterDraw_dt : (s.afterDraw).dt = s.dt := rfl
@[simp] theorem State.afterDraw_st : (s.afterDraw).st = s.st := rfl
@[simp] theorem State.afterDraw_keys : (s.afterDraw).keys = s.keys := rfl
@[simp] theorem State.afterDraw_fb : (s.afterDraw).fb = s.fb := rfl
@[simp] theorem State.afterDraw_dirty : (s.afterDraw).dirty = s.dirty := rfl
@[simp] theorem State.afterDraw_fault : (s.afterDraw).fault = s.fault := rfl
@[simp] theorem State.afterDraw_faultPc : (s.afterDraw).faultPc = s.faultPc := rfl
@[simp] theorem State.afterDraw_faultOp : (s.afterDraw).faultOp = s.faultOp := rfl
@[simp] theorem State.afterDraw_mem : (s.afterDraw).mem = s.mem := rfl
@[simp] theorem State.afterDraw_draws : (s.afterDraw).draws = s.draws + 1 := rfl

/-! ### The state after reset (R34) -/

@[simp] theorem State.reset_v : State.reset.v = Vector.replicate 16 0#8 := rfl
@[simp] theorem State.reset_index : State.reset.index = 0x0000#16 := rfl
@[simp] theorem State.reset_pc : State.reset.pc = 0x0200#16 := rfl
@[simp] theorem State.reset_sp : State.reset.sp = 0 := rfl
@[simp] theorem State.reset_stack : State.reset.stack = Vector.replicate 16 0#16 := rfl
@[simp] theorem State.reset_dt : State.reset.dt = 0#8 := rfl
@[simp] theorem State.reset_st : State.reset.st = 0#8 := rfl
@[simp] theorem State.reset_keys : State.reset.keys = Vector.replicate 16 false := rfl
@[simp] theorem State.reset_fb : State.reset.fb = Vector.replicate 32 (Vector.replicate 64 false) := rfl
@[simp] theorem State.reset_dirty : State.reset.dirty = false := rfl
@[simp] theorem State.reset_fault : State.reset.fault = .none := rfl
@[simp] theorem State.reset_faultPc : State.reset.faultPc = 0#16 := rfl
@[simp] theorem State.reset_faultOp : State.reset.faultOp = 0#16 := rfl
@[simp] theorem State.reset_mem : State.reset.mem = [] := rfl
@[simp] theorem State.reset_draws : State.reset.draws = 0 := rfl

/-! ### The state after reset with a `FONT` (R7, R33) -/

@[simp] theorem State.resetWith_v (font : Font) : (State.resetWith font).v = State.reset.v := rfl
@[simp] theorem State.resetWith_index (font : Font) : (State.resetWith font).index = State.reset.index := rfl
@[simp] theorem State.resetWith_pc (font : Font) : (State.resetWith font).pc = State.reset.pc := rfl
@[simp] theorem State.resetWith_sp (font : Font) : (State.resetWith font).sp = State.reset.sp := rfl
@[simp] theorem State.resetWith_stack (font : Font) : (State.resetWith font).stack = State.reset.stack := rfl
@[simp] theorem State.resetWith_dt (font : Font) : (State.resetWith font).dt = State.reset.dt := rfl
@[simp] theorem State.resetWith_st (font : Font) : (State.resetWith font).st = State.reset.st := rfl
@[simp] theorem State.resetWith_keys (font : Font) : (State.resetWith font).keys = State.reset.keys := rfl
@[simp] theorem State.resetWith_fb (font : Font) : (State.resetWith font).fb = State.reset.fb := rfl
@[simp] theorem State.resetWith_dirty (font : Font) : (State.resetWith font).dirty = State.reset.dirty := rfl
@[simp] theorem State.resetWith_fault (font : Font) : (State.resetWith font).fault = State.reset.fault := rfl
@[simp] theorem State.resetWith_faultPc (font : Font) : (State.resetWith font).faultPc = State.reset.faultPc := rfl
@[simp] theorem State.resetWith_faultOp (font : Font) : (State.resetWith font).faultOp = State.reset.faultOp := rfl
@[simp] theorem State.resetWith_mem (font : Font) : (State.resetWith font).mem = Memory.withFont font := rfl
@[simp] theorem State.resetWith_draws (font : Font) : (State.resetWith font).draws = State.reset.draws := rfl

/-! ### The host's `reset` (R240) -/

@[simp] theorem hostReset_v (font : Font) : (hostReset font s).v = State.reset.v := rfl
@[simp] theorem hostReset_index (font : Font) : (hostReset font s).index = State.reset.index := rfl
@[simp] theorem hostReset_pc (font : Font) : (hostReset font s).pc = State.reset.pc := rfl
@[simp] theorem hostReset_sp (font : Font) : (hostReset font s).sp = State.reset.sp := rfl
@[simp] theorem hostReset_stack (font : Font) : (hostReset font s).stack = State.reset.stack := rfl
@[simp] theorem hostReset_dt (font : Font) : (hostReset font s).dt = State.reset.dt := rfl
@[simp] theorem hostReset_st (font : Font) : (hostReset font s).st = State.reset.st := rfl
@[simp] theorem hostReset_keys (font : Font) : (hostReset font s).keys = State.reset.keys := rfl
@[simp] theorem hostReset_fb (font : Font) : (hostReset font s).fb = State.reset.fb := rfl
@[simp] theorem hostReset_dirty (font : Font) : (hostReset font s).dirty = State.reset.dirty := rfl
@[simp] theorem hostReset_fault (font : Font) : (hostReset font s).fault = State.reset.fault := rfl
@[simp] theorem hostReset_faultPc (font : Font) : (hostReset font s).faultPc = State.reset.faultPc := rfl
@[simp] theorem hostReset_faultOp (font : Font) : (hostReset font s).faultOp = State.reset.faultOp := rfl
@[simp] theorem hostReset_mem (font : Font) : (hostReset font s).mem = Memory.withFont font := rfl
@[simp] theorem hostReset_draws (font : Font) : (hostReset font s).draws = s.draws := rfl

end Sys2Proof.Machine
end

