-- ==== Sys2Proof/Laws/Ops.lean ====
section
/-! SUPPORT. What each shared operation does, once, so that later proofs cite it and do not unfold it. -/

namespace Sys2Proof.Machine

/-! ### Registers, pixels and keys: a read after a write -/

@[simp] theorem State.getV_setV_same (s : State) (r : Reg) (b : Byte) : (s.setV r b).getV r = b := by
  simp [State.getV]

theorem State.getV_setV_ne (s : State) {r q : Reg} (h : q ≠ r) (b : Byte) : (s.setV r b).getV q = s.getV q := by
  simp only [State.getV, State.setV_v]
  exact Vector.getElem_set_ne _ _ (fun e => h (BitVec.eq_of_toNat_eq e.symm))

theorem State.getV_setV (s : State) (r q : Reg) (b : Byte) : (s.setV r b).getV q = if q = r then b else s.getV q := by
  split
  · next h => subst h; exact s.getV_setV_same q b
  · next h => exact s.getV_setV_ne h b

@[simp] theorem State.getV_setFlag_VF (s : State) (f : Bool) : (s.setFlag f).getV VF = flagByte f :=
  s.getV_setV_same VF _

theorem State.getV_setFlag_ne (s : State) {q : Reg} (h : q ≠ VF) (f : Bool) : (s.setFlag f).getV q = s.getV q :=
  s.getV_setV_ne h _

/-- `resultThenFlag` leaves the flag in VF, the result in any other `x`, and every other register as it was (R142). -/
theorem State.getV_resultThenFlag (s : State) (x q : Reg) (b : Byte) (f : Bool) :
    (s.resultThenFlag x b f).getV q = if q = VF then flagByte f else if q = x then b else s.getV q := by
  simp only [State.resultThenFlag, State.setFlag, State.getV_setV]

/-- `flagThenResult` leaves the result in `x` whatever `x` is, and the flag in VF otherwise (R142). -/
theorem State.getV_flagThenResult (s : State) (x q : Reg) (b : Byte) (f : Bool) :
    (s.flagThenResult x f b).getV q = if q = x then b else if q = VF then flagByte f else s.getV q := by
  simp only [State.flagThenResult, State.setFlag, State.getV_setV]

theorem Framebuffer.pixel_setPixel (fb : Framebuffer) (row row' : Fin 32) (col col' : Fin 64) (p : Bool) :
    (fb.setPixel row col p).pixel row' col' = if row' = row ∧ col' = col then p else fb.pixel row' col' := by
  simp only [Framebuffer.pixel, Framebuffer.setPixel, Fin.getElem_fin, Vector.getElem_set]
  by_cases hr : row' = row
  · subst hr
    by_cases hc : col' = col
    · subst hc; simp
    · have : ¬ col.val = col'.val := fun e => hc (Fin.ext e.symm)
      simp [hc, this]
  · have : ¬ row.val = row'.val := fun e => hr (Fin.ext e.symm)
    simp [hr, this]

@[simp] theorem Framebuffer.pixel_clear (row : Fin 32) (col : Fin 64) : Framebuffer.clear.pixel row col = false := by
  simp [Framebuffer.pixel, Framebuffer.clear]

theorem State.keyPressed_setKey (s : State) (k q : Nibble) (p : Bool) :
    (s.setKey k p).keyPressed q = if q = k then p else s.keyPressed q := by
  simp only [State.keyPressed, State.setKey_keys]
  split
  · next h => subst h; simp
  · next h => exact Vector.getElem_set_ne _ _ (fun e => h (BitVec.eq_of_toNat_eq e.symm))

/-! ### The call stack -/

/-- A push answers a state exactly when a slot is free, and then writes the slot at `SP` and raises `SP` by one (R112). -/
theorem State.push?_eq_some {s t : State} {a : Word} :
    s.push? a = some t ↔
      ∃ h : s.sp.val < 16, t = { s with stack := s.stack.set s.sp.val a h, sp := ⟨s.sp.val + 1, by omega⟩ } := by
  unfold State.push?
  split
  · next h => simp [h, eq_comm]
  · next h => simp [h]

theorem State.push?_eq_none {s : State} {a : Word} : s.push? a = none ↔ s.sp.val = 16 := by
  unfold State.push?
  split
  · next h => simp; omega
  · next h => simp; omega

/-- A pop answers exactly when the stack is not empty, the slot below `SP`, and lowers `SP` by one (R110). -/
theorem State.pop?_eq_some {s t : State} {a : Word} :
    s.pop? = some (a, t) ↔
      ∃ h : 0 < s.sp.val, a = s.stack[s.sp.val - 1]'(by omega) ∧ t = { s with sp := ⟨s.sp.val - 1, by omega⟩ } := by
  unfold State.pop?
  split
  · next h => simp [h, eq_comm]
  · next h => simp [h]

theorem State.pop?_eq_none {s : State} : s.pop? = none ↔ s.sp.val = 0 := by
  unfold State.pop?
  split
  · next h => simp; omega
  · next h => simp; omega

/-! ### The cycle -/

theorem State.latched_iff {s : State} : s.latched = true ↔ s.fault ≠ .none := by simp [State.latched]

theorem State.not_latched_iff {s : State} : s.latched = false ↔ s.fault = .none := by simp [State.latched]

theorem State.pcOverflows_iff {s : State} : s.pcOverflows = true ↔ 0x0FFF ≤ s.pc.toNat := by simp [State.pcOverflows]

/-- PC seen from the execute phase is the address the step began at. -/
@[simp] theorem State.pc0_advance (s : State) : s.advance.pc0 = s.pc := by simp [State.pc0]

@[simp] theorem finish_next (t : State) : finish (.next t) = .next t.postExecute := rfl

theorem State.postExecute_of_latched {s : State} (h : s.latched = true) : s.postExecute = s := by
  simp [State.postExecute, h]

theorem State.postExecute_of_running {s : State} (h : s.latched = false) : s.postExecute = s.tick := by
  simp [State.postExecute, h]

/-- If `finish` answers a next state, it is the post-execute phase of the one it was given. -/
theorem finish_eq_next {o : Host.Outcome State Fault Refusal} {t : State} (h : finish o = .next t) :
    ∃ u, o = .next u ∧ t = u.postExecute := by
  cases o with
  | next u => exact ⟨u, rfl, by simpa [finish, eq_comm] using h⟩
  | fault r => exact nomatch r
  | refused r => simp [finish] at h

/-- Everything a step can do: nothing, when the latch is set; raise `AddressOverflow`; or execute one decoded or unknown
word after the advance, and then run the post-execute phase. -/
theorem step_next_cases {s t : State} (h : step s = .next t) :
    (s.latched = true ∧ t = s) ∨
    (s.latched = false ∧ s.pcOverflows = true ∧ t = s.raise .addressOverflow s.pc 0) ∨
    (s.latched = false ∧ s.pcOverflows = false ∧
      ∃ i u, decodeWord s.fetchWord = .ok i ∧ exec i s.advance = .next u ∧ t = u.postExecute) ∨
    (s.latched = false ∧ s.pcOverflows = false ∧
      ∃ e, decodeWord s.fetchWord = .error e ∧ t = s.advance.postExecute) := by
  unfold step at h
  split at h
  · next hl => exact .inl ⟨hl, by simpa [eq_comm] using h⟩
  · next hl =>
    have hl : s.latched = false := by simpa using hl
    split at h
    · next hp => exact .inr (.inl ⟨hl, hp, by simpa [eq_comm] using h⟩)
    · next hp =>
      have hp : s.pcOverflows = false := by simpa using hp
      split at h
      · next i hi =>
        obtain ⟨u, hu, ht⟩ := finish_eq_next h
        exact .inr (.inr (.inl ⟨hl, hp, i, u, hi, hu, ht⟩))
      · next e he =>
        obtain ⟨u, hu, ht⟩ := finish_eq_next h
        have : u = s.advance := by simpa [execUnknown, State.reportUnknown, eq_comm] using hu
        exact .inr (.inr (.inr ⟨hl, hp, e, he, this ▸ ht⟩))

/-! ### The condition of `load` (R245) -/

/-- It holds straight after a reset. -/
theorem hostReset_justReset (font : Font) (s : State) : (hostReset font s).justReset font = true := decide_eq_true rfl

/-- Key events keep it. -/
theorem State.justReset_setKey (font : Font) (s : State) (k : Nibble) (p : Bool) :
    (s.setKey k p).justReset font = s.justReset font := rfl

end Sys2Proof.Machine
end

