-- ==== Sys2Proof/Laws/Display.lean ====
section
/-! SUPPORT. What a blit does, once: each pixel, the collision and the change as one expression over the sprite (R173). -/

namespace Sys2Proof.Machine

/-- The eight columns of a sprite row are distinct. -/
theorem spriteCol_inj {vx : Byte} {b b' : Nat} (hb : b < 8) (hb' : b' < 8) (h : spriteCol vx b = spriteCol vx b') :
    b = b' := by
  have := congrArg Fin.val h
  simp only [spriteCol, Fin.val_ofNat] at this
  omega

/-- The rows of a sprite of at most 32 rows are distinct. -/
theorem spriteRow_inj {vy : Byte} {r r' : Nat} (hr : r < 32) (hr' : r' < 32) (h : spriteRow vy r = spriteRow vy r') :
    r = r' := by
  have := congrArg Fin.val h
  simp only [spriteRow, Fin.val_ofNat] at this
  omega

/-- The first `k` pixels of a row: each lands on its own column, so each sees the picture as it was before the row. -/
theorem blitRow_aux (vx vy byte : Byte) (r : Nat) (acc : Blit) (k : Nat) (hk : k ≤ 8) :
    let res := (List.range k).foldl (blitPixel vx vy byte r) acc
    (∀ row col, res.fb.pixel row col = (acc.fb.pixel row col ^^
      (decide (row = spriteRow vy r) && (List.range k).any fun b => decide (col = spriteCol vx b) && spriteBit byte b))) ∧
    res.hit = (acc.hit || (List.range k).any fun b =>
      spriteBit byte b && acc.fb.pixel (spriteRow vy r) (spriteCol vx b)) ∧
    res.changed = (acc.changed || (List.range k).any (spriteBit byte)) := by
  induction k with
  | zero => simp
  | succ k ih =>
    obtain ⟨hpix, hhit, hchg⟩ := ih (by omega)
    have hfresh : (List.range k).any (fun b => decide (spriteCol vx k = spriteCol vx b) && spriteBit byte b) = false := by
      simp only [List.any_eq_false, List.mem_range, Bool.and_eq_true, decide_eq_true_eq, not_and]
      intro b hb e
      exact absurd (spriteCol_inj (by omega) (by omega) e) (by omega)
    simp only [List.range_succ, List.foldl_append, List.foldl_cons, List.foldl_nil, List.any_append, List.any_cons,
      List.any_nil, Bool.or_false]
    have htarget := hpix (spriteRow vy r) (spriteCol vx k)
    rw [hfresh, Bool.and_false, Bool.xor_false] at htarget
    refine ⟨fun row col => ?_, ?_, ?_⟩
    · simp only [blitPixel, Framebuffer.pixel_setPixel]
      split
      · next h =>
        obtain ⟨rfl, rfl⟩ := h
        rw [htarget, hfresh]
        simp
      · next h =>
        rw [hpix row col]
        by_cases hrow : row = spriteRow vy r
        · have hcol : ¬ col = spriteCol vx k := fun e => h ⟨hrow, e⟩
          simp [hcol]
        · simp [hrow]
    · simp only [blitPixel]
      rw [hhit, htarget, Bool.or_assoc]
    · simp only [blitPixel]
      rw [hchg, Bool.or_assoc]

/-- A blit of `n` rows, `n` at most 32: every pixel is the old one XOR the sprite's pixel that lands on it, the collision is
whether a sprite pixel of 1 lands on a lit pixel of the old picture, the change whether a sprite pixel is 1 (R173). -/
theorem State.blit_eq (s : State) (vx vy : Byte) (n : Nat) (hn : n ≤ 32) :
    (∀ row col, (s.blit vx vy n).fb.pixel row col = (s.fb.pixel row col ^^
      (List.range n).any fun r => decide (row = spriteRow vy r) &&
        (List.range 8).any fun b => decide (col = spriteCol vx b) && spriteBit (s.readByte (s.ea r)) b)) ∧
    (s.blit vx vy n).hit = ((List.range n).any fun r => (List.range 8).any fun b =>
      spriteBit (s.readByte (s.ea r)) b && s.fb.pixel (spriteRow vy r) (spriteCol vx b)) ∧
    (s.blit vx vy n).changed = ((List.range n).any fun r => (List.range 8).any (spriteBit (s.readByte (s.ea r)))) := by
  induction n with
  | zero => simp [State.blit]
  | succ n ih =>
    obtain ⟨hpix, hhit, hchg⟩ := ih (by omega)
    have hstep : s.blit vx vy (n + 1) = blitRow vx vy (s.readByte (s.ea n)) n (s.blit vx vy n) := by
      simp only [State.blit, List.range_succ, List.foldl_append, List.foldl_cons, List.foldl_nil]
    obtain ⟨hp, hh, hc⟩ := blitRow_aux vx vy (s.readByte (s.ea n)) n (s.blit vx vy n) 8 (Nat.le_refl 8)
    have hfresh : ∀ col, ((List.range n).any fun r => decide (spriteRow vy n = spriteRow vy r) &&
        (List.range 8).any fun b => decide (col = spriteCol vx b) && spriteBit (s.readByte (s.ea r)) b) = false := by
      intro col
      simp only [List.any_eq_false, List.mem_range, Bool.and_eq_true, decide_eq_true_eq, not_and]
      intro r hr e
      exact absurd (spriteRow_inj (by omega) (by omega) e) (by omega)
    rw [hstep]
    have range_snoc : ∀ f : Nat → Bool, (List.range (n + 1)).any f = ((List.range n).any f || f n) := by
      intro f
      simp [List.range_succ]
    refine ⟨fun row col => ?_, ?_, ?_⟩
    · rw [blitRow, hp, hpix, range_snoc]
      by_cases hrow : row = spriteRow vy n
      · subst hrow
        rw [hfresh col]
        simp
      · simp [hrow]
    · rw [blitRow, hh, hhit, range_snoc]
      congr 2
      funext b
      rw [hpix, hfresh, Bool.xor_false]
    · rw [blitRow, hc, hchg, range_snoc]

end Sys2Proof.Machine
end

