-- ==== Sys2Proof/Laws/Encoding.lean ====
section
/-! SUPPORT. The fields of an assembled word, and its digits under the masks of the opcode map. -/

namespace Sys2Proof

/-- Appending bits is positional: the left value is scaled by the width of the right one. -/
theorem toNat_append_eq {w v : Nat} (a : BitVec w) (b : BitVec v) : (a ++ b).toNat = a.toNat * 2 ^ v + b.toNat := by
  rw [BitVec.toNat_append, ← Nat.shiftLeft_add_eq_or_of_lt b.isLt, Nat.shiftLeft_eq]

section
variable (g x y n : Nibble) (kk hi lo : Byte) (nnn : Addr) (op : Word)

/-! ### The number a format stands for (R71) -/

theorem wordNNN_toNat : (wordNNN g nnn).toNat = g.toNat * 4096 + nnn.toNat := toNat_append_eq g nnn

theorem wordXKK_toNat : (wordXKK g x kk).toNat = g.toNat * 4096 + x.toNat * 256 + kk.toNat := by
  rw [show (wordXKK g x kk).toNat = (g ++ x).toNat * 256 + kk.toNat from toNat_append_eq (g ++ x) kk, toNat_append_eq]
  omega

theorem wordXYN_toNat : (wordXYN g x y n).toNat = g.toNat * 4096 + x.toNat * 256 + y.toNat * 16 + n.toNat := by
  rw [show (wordXYN g x y n).toNat = (g ++ x ++ y).toNat * 16 + n.toNat from toNat_append_eq (g ++ x ++ y) n,
    toNat_append_eq, toNat_append_eq]
  omega

/-- `op = hi * 256 + lo` (R52). -/
theorem wordOfBytes_toNat : (wordOfBytes hi lo).toNat = hi.toNat * 256 + lo.toNat := toNat_append_eq hi lo

/-! ### The number a field stands for (R72) -/

theorem opGroup_toNat : (opGroup op).toNat = op.toNat / 4096 := by
  simp only [opGroup, BitVec.extractLsb'_toNat, Nat.shiftRight_eq_div_pow]
  omega

theorem opX_toNat : (opX op).toNat = op.toNat / 256 % 16 := by
  simp only [opX, BitVec.extractLsb'_toNat, Nat.shiftRight_eq_div_pow]

theorem opY_toNat : (opY op).toNat = op.toNat / 16 % 16 := by
  simp only [opY, BitVec.extractLsb'_toNat, Nat.shiftRight_eq_div_pow]

theorem opN_toNat : (opN op).toNat = op.toNat % 16 := by simp [opN, BitVec.extractLsb'_toNat]

theorem opKk_toNat : (opKk op).toNat = op.toNat % 256 := by simp [opKk, BitVec.extractLsb'_toNat]

theorem opNnn_toNat : (opNnn op).toNat = op.toNat % 4096 := by simp [opNnn, BitVec.extractLsb'_toNat]

theorem highByte_toNat : (highByte op).toNat = op.toNat / 256 := by
  simp only [highByte, BitVec.extractLsb'_toNat, Nat.shiftRight_eq_div_pow]
  omega

theorem lowByte_toNat : (lowByte op).toNat = op.toNat % 256 := by simp [lowByte, BitVec.extractLsb'_toNat]

/-! ### The fields of an assembled word -/

@[simp] theorem opGroup_wordNNN : opGroup (wordNNN g nnn) = g := by
  apply BitVec.eq_of_toNat_eq; rw [opGroup_toNat, wordNNN_toNat]; omega

@[simp] theorem opNnn_wordNNN : opNnn (wordNNN g nnn) = nnn := by
  apply BitVec.eq_of_toNat_eq; rw [opNnn_toNat, wordNNN_toNat]; omega

@[simp] theorem opGroup_wordXKK : opGroup (wordXKK g x kk) = g := by
  apply BitVec.eq_of_toNat_eq; rw [opGroup_toNat, wordXKK_toNat]; omega

@[simp] theorem opX_wordXKK : opX (wordXKK g x kk) = x := by
  apply BitVec.eq_of_toNat_eq; rw [opX_toNat, wordXKK_toNat]; omega

@[simp] theorem opKk_wordXKK : opKk (wordXKK g x kk) = kk := by
  apply BitVec.eq_of_toNat_eq; rw [opKk_toNat, wordXKK_toNat]; omega

@[simp] theorem opGroup_wordXYN : opGroup (wordXYN g x y n) = g := by
  apply BitVec.eq_of_toNat_eq; rw [opGroup_toNat, wordXYN_toNat]; omega

@[simp] theorem opX_wordXYN : opX (wordXYN g x y n) = x := by
  apply BitVec.eq_of_toNat_eq; rw [opX_toNat, wordXYN_toNat]; omega

@[simp] theorem opY_wordXYN : opY (wordXYN g x y n) = y := by
  apply BitVec.eq_of_toNat_eq; rw [opY_toNat, wordXYN_toNat]; omega

@[simp] theorem opN_wordXYN : opN (wordXYN g x y n) = n := by
  apply BitVec.eq_of_toNat_eq; rw [opN_toNat, wordXYN_toNat]; omega

/-! ### Every word is assembled from its fields, in each format -/

theorem wordNNN_fields : wordNNN (opGroup op) (opNnn op) = op := by
  apply BitVec.eq_of_toNat_eq; rw [wordNNN_toNat, opGroup_toNat, opNnn_toNat]; omega

theorem wordXKK_fields : wordXKK (opGroup op) (opX op) (opKk op) = op := by
  apply BitVec.eq_of_toNat_eq; rw [wordXKK_toNat, opGroup_toNat, opX_toNat, opKk_toNat]; omega

theorem wordXYN_fields : wordXYN (opGroup op) (opX op) (opY op) (opN op) = op := by
  apply BitVec.eq_of_toNat_eq; rw [wordXYN_toNat, opGroup_toNat, opX_toNat, opY_toNat, opN_toNat]; omega

/-! ### Bytes of a word (R52) -/

@[simp] theorem highByte_wordOfBytes : highByte (wordOfBytes hi lo) = hi := by
  apply BitVec.eq_of_toNat_eq; rw [highByte_toNat, wordOfBytes_toNat]; omega

@[simp] theorem lowByte_wordOfBytes : lowByte (wordOfBytes hi lo) = lo := by
  apply BitVec.eq_of_toNat_eq; rw [lowByte_toNat, wordOfBytes_toNat]; omega

@[simp] theorem wordOfBytes_bytes : wordOfBytes (highByte op) (lowByte op) = op := by
  apply BitVec.eq_of_toNat_eq; rw [wordOfBytes_toNat, highByte_toNat, lowByte_toNat]; omega

/-! ### Masks of the opcode map (R74) -/

theorem wordNNN_mask : wordNNN g nnn &&& 0xF000#16 = wordNNN g 0 := by
  have h := BitVec.and_append (x₁ := g) (y₁ := nnn) (x₂ := BitVec.allOnes 4) (y₂ := 0#12)
  rw [BitVec.and_allOnes, BitVec.and_zero] at h
  exact h

theorem wordXKK_mask_group : wordXKK g x kk &&& 0xF000#16 = wordXKK g 0 0 := by
  have h := BitVec.and_append (x₁ := g ++ x) (y₁ := kk) (x₂ := BitVec.allOnes 4 ++ 0#4) (y₂ := 0#8)
  have h' := BitVec.and_append (x₁ := g) (y₁ := x) (x₂ := BitVec.allOnes 4) (y₂ := 0#4)
  rw [BitVec.and_allOnes, BitVec.and_zero] at h'
  rw [h', BitVec.and_zero] at h
  exact h

theorem wordXKK_mask_function : wordXKK g x kk &&& 0xF0FF#16 = wordXKK g 0 kk := by
  have h := BitVec.and_append (x₁ := g ++ x) (y₁ := kk) (x₂ := BitVec.allOnes 4 ++ 0#4) (y₂ := BitVec.allOnes 8)
  have h' := BitVec.and_append (x₁ := g) (y₁ := x) (x₂ := BitVec.allOnes 4) (y₂ := 0#4)
  rw [BitVec.and_allOnes, BitVec.and_zero] at h'
  rw [h', BitVec.and_allOnes] at h
  exact h

theorem wordXYN_mask_group : wordXYN g x y n &&& 0xF000#16 = wordXYN g 0 0 0 := by
  have h := BitVec.and_append (x₁ := g ++ x ++ y) (y₁ := n) (x₂ := BitVec.allOnes 4 ++ 0#4 ++ 0#4) (y₂ := 0#4)
  have h' := BitVec.and_append (x₁ := g ++ x) (y₁ := y) (x₂ := BitVec.allOnes 4 ++ 0#4) (y₂ := 0#4)
  have h'' := BitVec.and_append (x₁ := g) (y₁ := x) (x₂ := BitVec.allOnes 4) (y₂ := 0#4)
  rw [BitVec.and_allOnes, BitVec.and_zero] at h''
  rw [h'', BitVec.and_zero] at h'
  rw [h', BitVec.and_zero] at h
  exact h

theorem wordXYN_mask_function : wordXYN g x y n &&& 0xF00F#16 = wordXYN g 0 0 n := by
  have h := BitVec.and_append (x₁ := g ++ x ++ y) (y₁ := n) (x₂ := BitVec.allOnes 4 ++ 0#4 ++ 0#4) (y₂ := BitVec.allOnes 4)
  have h' := BitVec.and_append (x₁ := g ++ x) (y₁ := y) (x₂ := BitVec.allOnes 4 ++ 0#4) (y₂ := 0#4)
  have h'' := BitVec.and_append (x₁ := g) (y₁ := x) (x₂ := BitVec.allOnes 4) (y₂ := 0#4)
  rw [BitVec.and_allOnes, BitVec.and_zero] at h''
  rw [h'', BitVec.and_zero] at h'
  rw [h', BitVec.and_allOnes] at h
  exact h

end

end Sys2Proof
end

