-- ==== Sys2Proof/Laws/Operands.lean ====
section
/-! SUPPORT. What each operand form does, once: the address through I, the register blocks of `Fx55` and `Fx65`, the key
scan, the key index, a byte sequence stored, and the word the host places. -/

namespace Sys2Proof.Machine

/-! ### The address through I (R56) -/

theorem State.ea_toNat (s : State) (off : Nat) : (s.ea off).toNat = (s.index.toNat + off) % 4096 := by
  simp [State.ea]

/-- Offsets below 4096 name distinct addresses. -/
theorem State.ea_inj {s : State} {i j : Nat} (hi : i < 4096) (hj : j < 4096) (h : s.ea i = s.ea j) : i = j := by
  have h' := congrArg BitVec.toNat h
  rw [State.ea_toNat, State.ea_toNat] at h'
  omega

/-! ### `Fx55` -/

/-- The stores of `Fx55` change memory only. -/
theorem State.storeRegs_eq (s : State) (x : Reg) : ∃ m, s.storeRegs x = { s with mem := m } := by
  have key : ∀ (l : List Nat) (t : State), (∃ m, t = { s with mem := m }) →
      ∃ m, l.foldl (fun t i => t.writeByte (s.ea i) (s.getV (BitVec.ofNat 4 i))) t = { s with mem := m } := by
    intro l
    induction l with
    | nil => exact fun _ h => h
    | cons i l ih =>
      rintro t ⟨m, rfl⟩
      exact ih _ ⟨m.write (s.ea i).toNat (s.getV (BitVec.ofNat 4 i)), rfl⟩
  exact key _ s ⟨s.mem, rfl⟩

theorem State.storeRegs_readByte_aux {s : State} (hm : s.mem.wf = true) (n : Nat) (hn : n ≤ 16) :
    let t := (List.range n).foldl (fun t i => t.writeByte (s.ea i) (s.getV (BitVec.ofNat 4 i))) s
    t.mem.wf = true ∧ (∀ i < n, t.readByte (s.ea i) = s.getV (BitVec.ofNat 4 i)) ∧
      ∀ a, (∀ i < n, a ≠ s.ea i) → t.readByte a = s.readByte a := by
  induction n with
  | zero => exact ⟨hm, fun i hi => absurd hi (Nat.not_lt_zero i), fun _ _ => rfl⟩
  | succ n ih =>
    obtain ⟨hwf, hin, hout⟩ := ih (by omega)
    simp only [List.range_succ, List.foldl_append, List.foldl_cons, List.foldl_nil]
    refine ⟨State.writeByte_wf _ _ hwf, fun i hi => ?_, fun a ha => ?_⟩
    · by_cases h : i = n
      · subst h; exact State.readByte_writeByte_same _ _ hwf
      · rw [State.readByte_writeByte_ne _ (fun e => h (State.ea_inj (by omega) (by omega) e))]
        exact hin i (by omega)
    · rw [State.readByte_writeByte_ne _ (ha n (by omega))]
      exact hout a fun i hi => ha i (by omega)

/-- After the stores of `Fx55` each `EA(r)` with `r` at most `x` reads as `V[r]`, and every other address as before (R154). -/
theorem State.storeRegs_readByte {s : State} (x : Reg) (hm : s.mem.wf = true) :
    (∀ r : Reg, r.toNat ≤ x.toNat → (s.storeRegs x).readByte (s.ea r.toNat) = s.getV r) ∧
      ∀ a, (∀ off ≤ x.toNat, a ≠ s.ea off) → (s.storeRegs x).readByte a = s.readByte a := by
  obtain ⟨-, hin, hout⟩ := State.storeRegs_readByte_aux hm (x.toNat + 1) (by omega)
  refine ⟨fun r hr => ?_, fun a ha => hout a fun i hi => ha i (by omega)⟩
  have := hin r.toNat (by omega)
  rwa [BitVec.ofNat_toNat, BitVec.setWidth_eq] at this

/-! ### `Fx65` -/

/-- The loads of `Fx65` change registers only. -/
theorem State.loadRegs_eq (s : State) (x : Reg) : ∃ v, s.loadRegs x = { s with v := v } := by
  have key : ∀ (l : List Nat) (t : State), (∃ v, t = { s with v := v }) →
      ∃ v, l.foldl (fun t i => t.setV (BitVec.ofNat 4 i) (s.readByte (s.ea i))) t = { s with v := v } := by
    intro l
    induction l with
    | nil => exact fun _ h => h
    | cons i l ih =>
      rintro t ⟨v, rfl⟩
      exact ih _ ⟨v.set (BitVec.ofNat 4 i).toNat (s.readByte (s.ea i)) (BitVec.ofNat 4 i).isLt, rfl⟩
  exact key _ s ⟨s.v, rfl⟩

theorem State.loadRegs_getV_aux (s : State) (q : Reg) (n : Nat) (hn : n ≤ 16) :
    ((List.range n).foldl (fun t i => t.setV (BitVec.ofNat 4 i) (s.readByte (s.ea i))) s).getV q =
      if q.toNat < n then s.readByte (s.ea q.toNat) else s.getV q := by
  induction n with
  | zero => simp
  | succ n ih =>
    simp only [List.range_succ, List.foldl_append, List.foldl_cons, List.foldl_nil]
    rw [State.getV_setV]
    by_cases h : q = BitVec.ofNat 4 n
    · have hq : q.toNat = n := by rw [h, BitVec.toNat_ofNat]; omega
      rw [if_pos h, if_pos (by omega), hq]
    · have hq : q.toNat ≠ n := fun e => h (by rw [← e, BitVec.ofNat_toNat, BitVec.setWidth_eq])
      rw [if_neg h, ih (by omega)]
      simp only [show q.toNat < n + 1 ↔ q.toNat < n by omega]

/-- After the loads of `Fx65` each `V[r]` with `r` at most `x` holds the byte at `EA(r)`, every other register as before (R155). -/
theorem State.loadRegs_getV (s : State) (x q : Reg) :
    (s.loadRegs x).getV q = if q.toNat ≤ x.toNat then s.readByte (s.ea q.toNat) else s.getV q := by
  rw [State.loadRegs, State.loadRegs_getV_aux s q (x.toNat + 1) (by omega)]
  simp only [Nat.lt_succ_iff]

/-! ### Keys (R192, R193) -/

theorem keyIndex?_eq_none {b : Byte} : keyIndex? b = none ↔ 15 < b.toNat := by
  unfold keyIndex?
  split <;> simp_all

theorem keyIndex?_eq_some {b : Byte} {k : Nibble} : keyIndex? b = some k ↔ k.toNat = b.toNat := by
  unfold keyIndex?
  split
  · simp only [reduceCtorEq, false_iff]; omega
  · simp only [Option.some.injEq]
    constructor
    · rintro rfl; simp; omega
    · intro h; apply BitVec.eq_of_toNat_eq; simp; omega

theorem State.lastPressed_aux (s : State) (n : Nat) :
    match (List.range n).foldl (fun found k => if s.keyPressed (BitVec.ofNat 4 k) then some k else found) none with
    | none => ∀ k < n, s.keyPressed (BitVec.ofNat 4 k) = false
    | some m => m < n ∧ s.keyPressed (BitVec.ofNat 4 m) = true ∧
        ∀ k < n, s.keyPressed (BitVec.ofNat 4 k) = true → k ≤ m := by
  induction n with
  | zero => exact fun k hk => absurd hk (Nat.not_lt_zero k)
  | succ n ih =>
    simp only [List.range_succ, List.foldl_append, List.foldl_cons, List.foldl_nil]
    by_cases h : s.keyPressed (BitVec.ofNat 4 n) = true
    · simp only [h, if_true]
      exact ⟨by omega, trivial, fun k hk _ => by omega⟩
    · simp only [h, if_false, Bool.false_eq_true]
      split at ih
      · next he =>
        intro k hk
        by_cases hkn : k = n
        · subst hkn; simpa using h
        · exact ih k (by omega)
      · next m he =>
        refine ⟨by omega, ih.2.1, fun k hk hp => ?_⟩
        by_cases hkn : k = n
        · subst hkn; exact absurd hp h
        · exact ih.2.2 k (by omega) hp

/-- The scan answers nothing exactly when no key is pressed. -/
theorem State.lastPressed_none {s : State} (h : s.lastPressed = none) (k : Nibble) : s.keyPressed k = false := by
  have aux := s.lastPressed_aux 16
  rw [show (List.range 16).foldl _ none = s.lastPressed from rfl, h] at aux
  have := aux k.toNat (by omega)
  rwa [BitVec.ofNat_toNat, BitVec.setWidth_eq] at this

/-- The scan answers the highest pressed key. -/
theorem State.lastPressed_some {s : State} {m : Nat} (h : s.lastPressed = some m) :
    m < 16 ∧ s.keyPressed (BitVec.ofNat 4 m) = true ∧ ∀ k : Nibble, s.keyPressed k = true → k.toNat ≤ m := by
  have aux := s.lastPressed_aux 16
  rw [show (List.range 16).foldl _ none = s.lastPressed from rfl, h] at aux
  refine ⟨aux.1, aux.2.1, fun k hk => aux.2.2 k.toNat (by omega) ?_⟩
  rwa [BitVec.ofNat_toNat, BitVec.setWidth_eq]

/-! ### A byte sequence stored (R245) -/

theorem Memory.read_writeList_of_lt {a a' : Nat} (h : a' < a) (bs : List Byte) (m : Memory) :
    (m.writeList a bs).read a' = m.read a' := by
  induction bs generalizing a m with
  | nil => rfl
  | cons b bs ih => rw [Memory.writeList, ih (by omega), Memory.read_write_ne (by omega)]

/-- Inside memory a byte sequence stored at `a` reads back byte for byte, and every other address reads as before. -/
theorem Memory.read_writeList {a : Nat} (bs : List Byte) {m : Memory} (hm : m.wf = true)
    (ha : a + bs.length ≤ Config.memSize) (a' : Nat) :
    (m.writeList a bs).read a' =
      if h : a ≤ a' ∧ a' - a < bs.length then bs[a' - a]'h.2 else m.read a' := by
  induction bs generalizing a m with
  | nil => simp [Memory.writeList]
  | cons b bs ih =>
    simp only [List.length_cons] at ha
    rw [Memory.writeList]
    by_cases he : a' = a
    · subst he
      rw [Memory.read_writeList_of_lt (by omega), Memory.read_write_same b hm]
      simp
    · rw [ih (Memory.wf_write b (by omega) hm) (by omega)]
      by_cases h : a + 1 ≤ a' ∧ a' - (a + 1) < bs.length
      · have h' : a ≤ a' ∧ a' - a < (b :: bs).length := ⟨by omega, by simp only [List.length_cons]; omega⟩
        rw [dif_pos h, dif_pos h']
        simp only [show a' - a = (a' - (a + 1)) + 1 by omega, List.getElem_cons_succ]
      · have h' : ¬ (a ≤ a' ∧ a' - a < (b :: bs).length) := by simp only [List.length_cons]; omega
        rw [dif_neg h, dif_neg h', Memory.read_write_ne he]

/-- Memory after reset with the parameter `FONT`, at every address: the font's byte below 0x050, and 0 above (R33). -/
theorem Memory.read_withFont (font : Font) (a : Nat) :
    (Memory.withFont font).read a = if h : a < font.bytes.length then font.bytes[a] else 0 := by
  rw [Memory.withFont, Memory.read_writeList font.bytes Memory.wf_reset (by rw [font.length_bytes]; decide)]
  by_cases h : a < font.bytes.length
  · rw [dif_pos ⟨Nat.zero_le a, h⟩, dif_pos h]
    rfl
  · rw [dif_neg fun h' => h h'.2, dif_neg h]
    exact if_neg (font.length_bytes ▸ h)

/-! ### The word the host places -/

/-- The state `withFetchWord` starts from holds no fault, and PC is where a fetch can happen. -/
theorem State.fetchable_runs (s : State) :
    s.fetchable.latched = false ∧ s.fetchable.pc.toNat ≤ 0x0FFE ∧ s.fetchable.mem = s.mem := by
  have hp : s.pcOverflows = false → s.pc.toNat ≤ 0x0FFE := by
    simp only [State.pcOverflows, decide_eq_false_iff_not]; omega
  have hb : (BitVec.ofNat 16 Config.progBase).toNat ≤ 0x0FFE := by decide
  unfold State.fetchable
  cases hl : s.latched <;> cases ho : s.pcOverflows
  · exact ⟨hl, hp ho, rfl⟩
  · exact ⟨hl, hb, rfl⟩
  · exact ⟨rfl, hp ho, rfl⟩
  · exact ⟨rfl, hb, rfl⟩

/-- The next step from `withFetchWord` fetches exactly the word placed. -/
theorem State.withFetchWord_fetchWord {s : State} (hm : s.mem.wf = true) (w : Nat) :
    (s.withFetchWord 16 w).latched = false ∧ (s.withFetchWord 16 w).pc.toNat ≤ 0x0FFE ∧
      (s.withFetchWord 16 w).fetchWord = BitVec.ofNat 16 w := by
  obtain ⟨hl, hp, hmem⟩ := s.fetchable_runs
  have hwf : s.fetchable.mem.wf = true := hmem ▸ hm
  have hne : (s.fetchable.pc.setWidth 12 : Addr) ≠ (s.fetchable.pc + 1).setWidth 12 := by
    intro e
    have := congrArg BitVec.toNat e
    simp at this
    omega
  have hw : BitVec.ofNat 16 (w % 2 ^ 16) = BitVec.ofNat 16 w := by
    apply BitVec.eq_of_toNat_eq; simp
  refine ⟨hl, hp, ?_⟩
  show wordOfBytes ((s.fetchable.placeWord _).readByte (s.fetchable.pc.setWidth 12))
    ((s.fetchable.placeWord _).readByte ((s.fetchable.pc + 1).setWidth 12)) = _
  rw [State.placeWord, State.readByte_writeByte_ne _ hne, State.readByte_writeByte_same _ _ hwf,
    State.readByte_writeByte_same _ _ (State.writeByte_wf _ _ hwf), wordOfBytes_bytes, hw]

end Sys2Proof.Machine
end

