-- ==== Sys2Proof/Laws/PerInstr.lean ====
section
/-! SUPPORT. Laws stated for every instruction, one lemma for each constructor. -/

namespace Sys2Proof.Laws.EncodesRow

/-- The word of an instruction matches the mask and value of its own row of the opcode map (R74), and, but for `SYS`, its
term is well formed whatever its operands (R72). -/
def Statement (i : Instr) : Prop :=
  i.row.claims (encode i) ∧ (i.row.mnemonic ≠ "SYS" → i.wellFormed = true)

theorem cls : Statement (.cls) :=
  ⟨by decide, fun _ => rfl⟩

theorem ret : Statement (.ret) :=
  ⟨by decide, fun _ => rfl⟩

theorem sys (nnn : Addr) : Statement (.sys nnn) :=
  ⟨wordNNN_mask _ _, fun h => absurd rfl h⟩

theorem jp (nnn : Addr) : Statement (.jp nnn) :=
  ⟨wordNNN_mask _ _, fun _ => rfl⟩

theorem call (nnn : Addr) : Statement (.call nnn) :=
  ⟨wordNNN_mask _ _, fun _ => rfl⟩

theorem seVxKk (x : Reg) (kk : Byte) : Statement (.seVxKk x kk) :=
  ⟨wordXKK_mask_group _ _ _, fun _ => rfl⟩

theorem sneVxKk (x : Reg) (kk : Byte) : Statement (.sneVxKk x kk) :=
  ⟨wordXKK_mask_group _ _ _, fun _ => rfl⟩

theorem seVxVy (x : Reg) (y : Reg) : Statement (.seVxVy x y) :=
  ⟨wordXYN_mask_function _ _ _ _, fun _ => rfl⟩

theorem ldVxKk (x : Reg) (kk : Byte) : Statement (.ldVxKk x kk) :=
  ⟨wordXKK_mask_group _ _ _, fun _ => rfl⟩

theorem addVxKk (x : Reg) (kk : Byte) : Statement (.addVxKk x kk) :=
  ⟨wordXKK_mask_group _ _ _, fun _ => rfl⟩

theorem ldVxVy (x : Reg) (y : Reg) : Statement (.ldVxVy x y) :=
  ⟨wordXYN_mask_function _ _ _ _, fun _ => rfl⟩

theorem orVxVy (x : Reg) (y : Reg) : Statement (.orVxVy x y) :=
  ⟨wordXYN_mask_function _ _ _ _, fun _ => rfl⟩

theorem andVxVy (x : Reg) (y : Reg) : Statement (.andVxVy x y) :=
  ⟨wordXYN_mask_function _ _ _ _, fun _ => rfl⟩

theorem xorVxVy (x : Reg) (y : Reg) : Statement (.xorVxVy x y) :=
  ⟨wordXYN_mask_function _ _ _ _, fun _ => rfl⟩

theorem addVxVy (x : Reg) (y : Reg) : Statement (.addVxVy x y) :=
  ⟨wordXYN_mask_function _ _ _ _, fun _ => rfl⟩

theorem sub (x : Reg) (y : Reg) : Statement (.sub x y) :=
  ⟨wordXYN_mask_function _ _ _ _, fun _ => rfl⟩

theorem shr (x : Reg) (y : Reg) : Statement (.shr x y) :=
  ⟨wordXYN_mask_function _ _ _ _, fun _ => rfl⟩

theorem subn (x : Reg) (y : Reg) : Statement (.subn x y) :=
  ⟨wordXYN_mask_function _ _ _ _, fun _ => rfl⟩

theorem shl (x : Reg) (y : Reg) : Statement (.shl x y) :=
  ⟨wordXYN_mask_function _ _ _ _, fun _ => rfl⟩

theorem sneVxVy (x : Reg) (y : Reg) : Statement (.sneVxVy x y) :=
  ⟨wordXYN_mask_function _ _ _ _, fun _ => rfl⟩

theorem ldINnn (nnn : Addr) : Statement (.ldINnn nnn) :=
  ⟨wordNNN_mask _ _, fun _ => rfl⟩

theorem jpV0 (nnn : Addr) : Statement (.jpV0 nnn) :=
  ⟨wordNNN_mask _ _, fun _ => rfl⟩

theorem rnd (x : Reg) (kk : Byte) : Statement (.rnd x kk) :=
  ⟨wordXKK_mask_group _ _ _, fun _ => rfl⟩

theorem drw (x : Reg) (y : Reg) (n : Nibble) : Statement (.drw x y n) :=
  ⟨wordXYN_mask_group _ _ _ _, fun _ => rfl⟩

theorem skp (x : Reg) : Statement (.skp x) :=
  ⟨wordXKK_mask_function _ _ _, fun _ => rfl⟩

theorem sknp (x : Reg) : Statement (.sknp x) :=
  ⟨wordXKK_mask_function _ _ _, fun _ => rfl⟩

theorem ldVxDt (x : Reg) : Statement (.ldVxDt x) :=
  ⟨wordXKK_mask_function _ _ _, fun _ => rfl⟩

theorem ldVxK (x : Reg) : Statement (.ldVxK x) :=
  ⟨wordXKK_mask_function _ _ _, fun _ => rfl⟩

theorem ldDtVx (x : Reg) : Statement (.ldDtVx x) :=
  ⟨wordXKK_mask_function _ _ _, fun _ => rfl⟩

theorem ldStVx (x : Reg) : Statement (.ldStVx x) :=
  ⟨wordXKK_mask_function _ _ _, fun _ => rfl⟩

theorem addIVx (x : Reg) : Statement (.addIVx x) :=
  ⟨wordXKK_mask_function _ _ _, fun _ => rfl⟩

theorem ldFVx (x : Reg) : Statement (.ldFVx x) :=
  ⟨wordXKK_mask_function _ _ _, fun _ => rfl⟩

theorem ldBVx (x : Reg) : Statement (.ldBVx x) :=
  ⟨wordXKK_mask_function _ _ _, fun _ => rfl⟩

theorem ldMiVx (x : Reg) : Statement (.ldMiVx x) :=
  ⟨wordXKK_mask_function _ _ _, fun _ => rfl⟩

theorem ldVxMi (x : Reg) : Statement (.ldVxMi x) :=
  ⟨wordXKK_mask_function _ _ _, fun _ => rfl⟩

end Sys2Proof.Laws.EncodesRow
end

