-- ==== Sys2Proof/Tests/Slice0.lean ====
section
/-! SUPPORT. Tests: words written out from the spec's patterns, the spec's test vectors (spec/95_test_vectors.md) one step
each, and a witness for every statement that has hypotheses. -/

namespace Sys2Proof.Tests

open Sys2Proof.Machine

/-! ### Helpers -/

/-- `s` with the instruction word `op` where the next step fetches it. -/
def placed (op : Word) (s : State) : State := s.withFetchWord 16 op.toNat

/-- The state after one step; `s` itself if there were none. -/
def after (s : State) : State :=
  match step s with
  | .next t => t
  | .fault _ => s
  | .refused _ => s

/-- The reset state with some registers set. -/
def regs (l : List (Reg × Byte)) : State := l.foldl (fun s p => s.setV p.1 p.2) State.reset

/-- One step of the word `op` from the reset state with some registers set. -/
def run (op : Word) (l : List (Reg × Byte)) : State := after (placed op (regs l))

/-! ### Well-formedness refuses the ill-formed term of its one check -/

theorem test_wellFormed_refuses_sys_cls : (Instr.sys 0x0E0).wellFormed = false := by decide
theorem test_wellFormed_refuses_sys_ret : (Instr.sys 0x0EE).wellFormed = false := by decide
theorem test_wellFormed_takes_sys : (Instr.sys 0x0E1).wellFormed = true := by decide

/-! ### Decoding: a word written out from each row's pattern (30_encoding.md R74, 95 2.1) -/

theorem test_decode_cls : decodeWord 0b0000000011100000 = .ok .cls := by decide
theorem test_decode_ret : decodeWord 0b0000000011101110 = .ok .ret := by decide
theorem test_decode_sys : decodeWord 0b0000000011110000 = .ok (.sys 0x0F0) := by decide
theorem test_decode_jp : decodeWord 0b0001101010111100 = .ok (.jp 0xABC) := by decide
theorem test_decode_call : decodeWord 0b0010111111111111 = .ok (.call 0xFFF) := by decide
theorem test_decode_seVxKk : decodeWord 0b0011101001000010 = .ok (.seVxKk 0xA 0x42) := by decide
theorem test_decode_sneVxKk : decodeWord 0b0100111100000000 = .ok (.sneVxKk 0xF 0x00) := by decide
theorem test_decode_seVxVy : decodeWord 0b0101000100100000 = .ok (.seVxVy 1 2) := by decide
theorem test_decode_ldVxKk : decodeWord 0b0110111111111111 = .ok (.ldVxKk 0xF 0xFF) := by decide
theorem test_decode_addVxKk : decodeWord 0b0111000000000001 = .ok (.addVxKk 0 1) := by decide
theorem test_decode_ldVxVy : decodeWord 0b1000101010110000 = .ok (.ldVxVy 0xA 0xB) := by decide
theorem test_decode_orVxVy : decodeWord 0b1000000100100001 = .ok (.orVxVy 1 2) := by decide
theorem test_decode_andVxVy : decodeWord 0b1000000100100010 = .ok (.andVxVy 1 2) := by decide
theorem test_decode_xorVxVy : decodeWord 0b1000000100100011 = .ok (.xorVxVy 1 2) := by decide
theorem test_decode_addVxVy : decodeWord 0b1000000100100100 = .ok (.addVxVy 1 2) := by decide
theorem test_decode_sub : decodeWord 0b1000000100100101 = .ok (.sub 1 2) := by decide
theorem test_decode_shr : decodeWord 0b1000000100100110 = .ok (.shr 1 2) := by decide
theorem test_decode_subn : decodeWord 0b1000101010110111 = .ok (.subn 0xA 0xB) := by decide
theorem test_decode_shl : decodeWord 0b1000101010111110 = .ok (.shl 0xA 0xB) := by decide
theorem test_decode_sneVxVy : decodeWord 0b1001000100100000 = .ok (.sneVxVy 1 2) := by decide
theorem test_decode_ldINnn : decodeWord 0b1010000100100011 = .ok (.ldINnn 0x123) := by decide
theorem test_decode_jpV0 : decodeWord 0b1011001100000000 = .ok (.jpV0 0x300) := by decide
theorem test_decode_rnd : decodeWord 0b1100001100001111 = .ok (.rnd 3 0x0F) := by decide
theorem test_decode_drw : decodeWord 0b1101000100101111 = .ok (.drw 1 2 15) := by decide
theorem test_decode_skp : decodeWord 0b1110001110011110 = .ok (.skp 3) := by decide
theorem test_decode_sknp : decodeWord 0b1110001110100001 = .ok (.sknp 3) := by decide
theorem test_decode_ldVxDt : decodeWord 0b1111000000000111 = .ok (.ldVxDt 0) := by decide
theorem test_decode_ldVxK : decodeWord 0b1111000000001010 = .ok (.ldVxK 0) := by decide
theorem test_decode_ldDtVx : decodeWord 0b1111000100010101 = .ok (.ldDtVx 1) := by decide
theorem test_decode_ldStVx : decodeWord 0b1111000100011000 = .ok (.ldStVx 1) := by decide
theorem test_decode_addIVx : decodeWord 0b1111001000011110 = .ok (.addIVx 2) := by decide
theorem test_decode_ldFVx : decodeWord 0b1111000100101001 = .ok (.ldFVx 1) := by decide
theorem test_decode_ldBVx : decodeWord 0b1111000000110011 = .ok (.ldBVx 0) := by decide
theorem test_decode_ldMiVx : decodeWord 0b1111001001010101 = .ok (.ldMiVx 2) := by decide
theorem test_decode_ldVxMi : decodeWord 0b1111111101100101 = .ok (.ldVxMi 0xF) := by decide

/-! The words of 95 2.1 that are unknown and not `SYS`. -/

theorem test_decode_unknown_groups_5_9 : decodeWord 0x5121 = .error (.unknown 0x5121) ∧
    decodeWord 0x512F = .error (.unknown 0x512F) ∧ decodeWord 0x9128 = .error (.unknown 0x9128) := by decide
theorem test_decode_unknown_group_8 : decodeWord 0x8AB8 = .error (.unknown 0x8AB8) ∧
    decodeWord 0x8ABD = .error (.unknown 0x8ABD) ∧ decodeWord 0x8ABF = .error (.unknown 0x8ABF) := by decide
theorem test_decode_unknown_group_E : decodeWord 0xE19F = .error (.unknown 0xE19F) ∧
    decodeWord 0xE30E = .error (.unknown 0xE30E) ∧ decodeWord 0xE301 = .error (.unknown 0xE301) := by decide
theorem test_decode_unknown_group_F : decodeWord 0xF000 = .error (.unknown 0xF000) ∧
    decodeWord 0xF075 = .error (.unknown 0xF075) ∧ decodeWord 0xFFFF = .error (.unknown 0xFFFF) := by decide

/-- Bytes are consumed two at a time, high byte first (R70, R52); a single byte is rejected by name. -/
theorem test_decode_bytes : decode [0x12, 0x34, 0x60] = .ok (.jp 0x234, [0x60]) := by decide
theorem test_decode_truncated : decode [0x12] = .error (.truncated 1) := by decide
theorem test_decodeTableWord : decodeTableWord 16 0x8124 = some (.addVxVy 1 2) := by decide
theorem test_decodeTableWord_unknown : decodeTableWord 16 0x5121 = none := by decide

/-! ### Reset and fetch (95 S8, 2.2) -/

theorem test_reset_font_first : State.reset.readByte 0 = 0xF0 := by decide
theorem test_reset_memory_zero : State.reset.readByte 0x050 = 0 ∧ State.reset.readByte 0xFFF = 0 := by decide
/-- A `FONT` other than the default: 0xF0 and 79 bytes 0x55. -/
def otherFont : Font := ⟨0xF0 :: List.replicate 79 0x55, by decide, rfl⟩

theorem test_reset_other_font :
    List.map (State.resetWith otherFont).readByte [0x000, 0x001, 0x04F, 0x050, 0x200] = [0xF0, 0x55, 0x55, 0, 0] := by
  decide
theorem test_fetch_big_endian : (placed 0x1234 State.reset).readByte 0x200 = 0x12 ∧
    (placed 0x1234 State.reset).readByte 0x201 = 0x34 ∧ (run 0x1234 []).pc = 0x234 := by decide
theorem test_fetch_odd_pc : (after (placed 0x6107 (State.reset.setPc 0x201))).getV 1 = 7 ∧
    (after (placed 0x6107 (State.reset.setPc 0x201))).pc = 0x203 := by decide
theorem test_withFetchWord_from_stopped :
    (placed 0x6107 ((State.reset.setPc 0x1000).raise .addressOverflow 0x1000 0)).pc = 0x200 ∧
    (after (placed 0x6107 ((State.reset.setPc 0x1000).raise .addressOverflow 0x1000 0))).getV 1 = 7 := by decide

/-! ### Unknown opcodes (95 2.2) -/

theorem test_unknown_reported :
    stepResult (placed 0x8018 ((State.reset.setDt 3).setSt 1)) = some (.reported 0x8018) ∧
    after (placed 0x8018 ((State.reset.setDt 3).setSt 1)) =
      (((placed 0x8018 State.reset).setPc 0x202).setDt 2) := by decide
theorem test_sys_reported : stepResult (placed 0x0123 State.reset) = some (.reported 0x0123) ∧
    (run 0x0123 []).pc = 0x202 := by decide

/-! ### Control transfer (95 2.3) -/

theorem test_jp : (run 0x1123 []).pc = 0x123 := by decide
theorem test_call : (after (placed 0x2208 (State.reset.setPc 0x204))).stack[0] = 0x0206 ∧
    (after (placed 0x2208 (State.reset.setPc 0x204))).sp = 1 ∧
    (after (placed 0x2208 (State.reset.setPc 0x204))).pc = 0x0208 := by decide
theorem test_call_full : after (placed 0x2300 { State.reset with sp := 16, dt := 9 }) =
    { placed 0x2300 { State.reset with sp := 16, dt := 9 } with
      fault := .stackOverflow, faultPc := 0x0200, faultOp := 0x2300 } := by decide
theorem test_ret : (after (placed 0x00EE { State.reset with sp := 16, stack := State.reset.stack.set 15 0x0ABC })).pc =
    0x0ABC ∧
    (after (placed 0x00EE { State.reset with sp := 16, stack := State.reset.stack.set 15 0x0ABC })).sp = 15 := by decide
theorem test_ret_empty : after (placed 0x00EE State.reset) =
    { placed 0x00EE State.reset with fault := .stackUnderflow, faultPc := 0x0200, faultOp := 0x00EE } := by decide
theorem test_jpV0 : (run 0xBFFF [(0, 0xFF)]).pc = 0x10FE := by decide
theorem test_seVxKk : (run 0x3A42 [(0xA, 0x42)]).pc = 0x204 ∧ (run 0x3A42 [(0xA, 0x41)]).pc = 0x202 := by decide
theorem test_sneVxKk : (run 0x4A42 [(0xA, 0x42)]).pc = 0x202 ∧ (run 0x4A42 [(0xA, 0x00)]).pc = 0x204 := by decide
theorem test_seVxVy : (run 0x5120 [(1, 7), (2, 7)]).pc = 0x204 ∧ (run 0x5120 [(1, 7), (2, 8)]).pc = 0x202 := by decide
theorem test_sneVxVy : (run 0x9120 [(1, 7), (2, 8)]).pc = 0x204 ∧ (run 0x9120 [(1, 7), (2, 7)]).pc = 0x202 := by decide

/-! ### Load and ALU (95 2.4) -/

theorem test_ldVxKk : (run 0x6F07 [(0xF, 1)]).getV 0xF = 0x07 := by decide
theorem test_addVxKk : (run 0x70FF [(0, 0xFF)]).getV 0 = 0xFE ∧ (run 0x70FF [(0, 0xFF)]).getV VF = 0 := by decide
theorem test_ldVxVy : (run 0x8120 [(2, 0x37)]).getV 1 = 0x37 := by decide
theorem test_or : (run 0x8121 [(1, 0xF0), (2, 0x0F), (0xF, 1)]).getV 1 = 0xFF ∧
    (run 0x8121 [(1, 0xF0), (2, 0x0F), (0xF, 1)]).getV VF = 1 := by decide
theorem test_and : (run 0x8122 [(1, 0xF0), (2, 0x3C)]).getV 1 = 0x30 := by decide
theorem test_xor : (run 0x8123 [(1, 0xF0), (2, 0x3C)]).getV 1 = 0xCC := by decide
theorem test_addVxVy : (run 0x8124 [(1, 0xFF), (2, 0x01)]).getV 1 = 0x00 ∧
    (run 0x8124 [(1, 0xFF), (2, 0x01)]).getV VF = 1 := by decide
theorem test_addVxVy_vf : (run 0x8F14 [(0xF, 0xFF), (1, 0x01)]).getV VF = 1 ∧
    (run 0x8F14 [(0xF, 0x02), (1, 0x03)]).getV VF = 0 := by decide
theorem test_sub : (run 0x8125 [(1, 0x10), (2, 0x20)]).getV 1 = 0xF0 ∧
    (run 0x8125 [(1, 0x10), (2, 0x20)]).getV VF = 0 := by decide
theorem test_sub_equal : (run 0x8125 [(1, 0x33), (2, 0x33)]).getV 1 = 0 ∧
    (run 0x8125 [(1, 0x33), (2, 0x33)]).getV VF = 1 := by decide
theorem test_shr : (run 0x8126 [(1, 0x05), (2, 0xFF)]).getV 1 = 0x02 ∧
    (run 0x8126 [(1, 0x05), (2, 0xFF)]).getV VF = 1 := by decide
theorem test_shr_vf : (run 0x8F06 [(0xF, 0x06)]).getV VF = 0x03 := by decide
theorem test_subn : (run 0x8127 [(1, 0x20), (2, 0x10)]).getV 1 = 0xF0 ∧
    (run 0x8127 [(1, 0x20), (2, 0x10)]).getV VF = 0 := by decide
theorem test_shl : (run 0x810E [(1, 0x81)]).getV 1 = 0x02 ∧ (run 0x810E [(1, 0x81)]).getV VF = 1 := by decide
theorem test_shl_vf : (run 0x8F0E [(0xF, 0x41)]).getV VF = 0x82 := by decide
theorem test_rnd : (run 0xC30F []).getV 3 = Config.rand 0 &&& 0x0F := rfl
theorem test_rnd_draws : (run 0xC30F []).draws = 1 := rfl

/-! ### Index and memory (95 2.5) -/

theorem test_ldINnn : (run 0xAFFF []).index = 0x0FFF := by decide
theorem test_addIVx : (after (placed 0xF21E ((regs [(2, 2)]).setIndex 0xFFFF))).index = 0x0001 := by decide
theorem test_ldFVx : (run 0xF129 [(1, 0xFF)]).index = 0x04FB := by decide
theorem test_ldBVx :
    (List.map (after (placed 0xF033 ((regs [(0, 123)]).setIndex 0x1300))).readByte [0x300, 0x301, 0x302]) =
      [1, 2, 3] := by decide
theorem test_ldBVx_wraps :
    (List.map (after (placed 0xF033 ((regs [(0, 255)]).setIndex 0x0FFF))).readByte [0xFFF, 0x000, 0x001]) =
      [2, 5, 5] := by decide
theorem test_ldMiVx :
    (List.map (after (placed 0xF355 ((regs [(0, 1), (1, 2), (2, 3), (3, 4)]).setIndex 0x0FFE))).readByte
      [0xFFE, 0xFFF, 0x000, 0x001, 0x002]) = [1, 2, 3, 4, 0x90] := by decide
theorem test_ldVxMi :
    (List.map (after (placed 0xF265 ((((((regs [(3, 0x99)]).setIndex 0x300).writeByte 0x300 2).writeByte 0x301 5).writeByte
      0x302 4)))).getV [0, 1, 2, 3]) = [2, 5, 4, 0x99] := by decide

/-! ### Display (95 2.6) -/

/-- A state with sprite bytes at 0x300 and I there. -/
def sprite (bytes : List Byte) (l : List (Reg × Byte)) : State :=
  { regs l with index := 0x300, mem := (regs l).mem.writeList 0x300 bytes }

theorem test_cls : (run 0x00E0 []).dirty = true ∧ (run 0x00E0 []).fb = State.reset.fb := by decide
theorem test_drw_edge : let t := after (placed 0xD011 (sprite [0xFF] [(0, 60), (1, 0)]))
    (List.map (t.fb.pixel 0) [59, 60, 63, 0, 3, 4]) = [false, true, true, true, true, false] ∧ t.getV VF = 0 ∧
      t.dirty = true := by decide
theorem test_drw_collides : let s := sprite [0xC0] [(0, 0), (1, 0)]
    let t := after (placed 0xD011 { s with fb := s.fb.setPixel 0 1 true })
    t.fb.pixel 0 0 = true ∧ t.fb.pixel 0 1 = false ∧ t.getV VF = 1 := by decide
theorem test_drw_vf_coordinate : let t := after (placed 0xDF01 (sprite [0x80] [(0xF, 5), (0, 2)]))
    t.fb.pixel 2 5 = true ∧ t.getV VF = 0 := by decide

/-! ### Keys and timers (95 2.7, 2.8) -/

theorem test_skp : (after (placed 0xE39E ((regs [(3, 0x0A)]).setKey 10 true))).pc = 0x204 ∧
    (run 0xE39E [(3, 0x0A)]).pc = 0x202 := by decide
theorem test_skp_range : run 0xE39E [(3, 0x10)] =
    { placed 0xE39E (regs [(3, 0x10)]) with
      fault := .keyIndexRange, faultPc := 0x0200, faultOp := 0xE39E } := by decide
theorem test_sknp : (run 0xE3A1 [(3, 0x0A)]).pc = 0x204 ∧
    (after (placed 0xE3A1 ((regs [(3, 0x0A)]).setKey 10 true))).pc = 0x202 := by decide
theorem test_sknp_range : (run 0xE3A1 [(3, 0xFF)]).fault = .keyIndexRange ∧ (run 0xE3A1 [(3, 0xFF)]).faultOp = 0xE3A1 := by
  decide
theorem test_ldVxK_highest : (after (placed 0xF20A ((State.reset.setKey 7 true).setKey 10 true))).getV 2 = 0x0A := by decide
theorem test_ldVxK_waits : let t := after (placed 0xF20A (((regs [(2, 0x55)]).setDt 4).setPc 0x206))
    t.pc = 0x206 ∧ t.getV 2 = 0x55 ∧ t.dt = 3 := by decide
theorem test_ldVxDt : (after (placed 0xF107 (State.reset.setDt 2))).getV 1 = 2 ∧
    (after (placed 0xF107 (State.reset.setDt 2))).dt = 1 := by decide
theorem test_ldDtVx : (run 0xF015 [(0, 3)]).dt = 2 ∧ (run 0xF015 [(0, 0)]).dt = 0 := by decide
theorem test_ldStVx : (run 0xF418 [(4, 0x10)]).st = 0x0F := by decide

/-! ### Faults, the latch, and the host (95 2.9, 2.10) -/

theorem test_overflow : after ((State.reset.setPc 0x1000).setDt 5) =
    { (State.reset.setPc 0x1000).setDt 5 with fault := .addressOverflow, faultPc := 0x1000, faultOp := 0 } ∧
    stepResult ((State.reset.setPc 0x1000).setDt 5) = some (.faulted .addressOverflow) := by decide
theorem test_last_fetch : (after (placed 0x1200 (State.reset.setPc 0x0FFE))).pc = 0x0200 ∧
    (after (State.reset.setPc 0x0FFF)).fault = .addressOverflow := by decide
theorem test_latched : after (placed 0x6107 State.reset |>.raise .stackUnderflow 0x200 0x00EE) =
    (placed 0x6107 State.reset |>.raise .stackUnderflow 0x200 0x00EE) := by decide
theorem test_load : (match perform .default (.load [0x42, 0x42, 0x42]) State.reset with
    | .done t => List.map t.readByte [0x1FF, 0x200, 0x201, 0x202, 0x203, 0x000]
    | .romTooLarge => []
    | .notDefined => []) = [0, 0x42, 0x42, 0x42, 0, 0xF0] := by decide
theorem test_load_twice_not_defined :
    performAll .default [.reset, .load [0x12, 0x00], .step, .load [0x60, 0x00]] State.reset = none := by decide
theorem test_load_too_large : hostLoad .default (List.replicate 3585 0) State.reset = .romTooLarge := by
  unfold hostLoad
  rw [if_neg (by decide), if_pos (by rw [List.length_replicate]; decide)]

end Sys2Proof.Tests
end

