-- ==== Sys2Proof/Tests/Witnesses.lean ====
section
/-! SUPPORT. For every statement that has hypotheses, a concrete state and operands that meet them together; where a
statement has several clauses, one for each, at a boundary of its range. -/

namespace Sys2Proof.Tests

open Sys2Proof.Machine

/-! ### Encoding -/

theorem test_witness_DecodeOfEncode :
    (Instr.call 0xFFF).wellFormed = true ∧ (Instr.sys 0x0E1).wellFormed = true := by decide
theorem test_witness_EncodeOfDecode : decodeWord 0x8FF4 = .ok (.addVxVy 0xF 0xF) := by decide
theorem test_witness_DecodeIsOpcodeMap :
    (Instr.shl 0 0).row.claims 0x8FFE ∧ (Instr.sys 0).row.claims 0x00E1 ∧ 0x00E1#16 ≠ 0x00E0#16 ∧
      0x00E1#16 ≠ 0x00EE#16 ∧ (Instr.shl 0 0).row ≠ (Instr.sys 0).row := by decide

/-! ### The step -/

theorem test_witness_FetchIsBigEndian : (State.reset.setPc 0x0FFE).pc.toNat ≤ 0x0FFE := by decide
theorem test_witness_StepRunsDecodedInstruction :
    (placed 0x7001 State.reset).latched = false ∧ (placed 0x7001 State.reset).pc.toNat ≤ 0x0FFE ∧
      decode [(placed 0x7001 State.reset).mem.read (placed 0x7001 State.reset).pc.toNat,
        (placed 0x7001 State.reset).mem.read ((placed 0x7001 State.reset).pc.toNat + 1)] = .ok (.addVxKk 0 1, []) := by
  decide
theorem test_witness_StepRunsDecodedInstruction_exec : ∃ u, exec (.addVxKk 0 1) (placed 0x7001 State.reset).advance = .next u :=
  ⟨_, rfl⟩
theorem test_witness_UnknownOpcodeIsSteppedOver :
    (placed 0x5121 State.reset).fetches 0x5121 ∧ isUnknownOpcode 0x5121 = true ∧
      (placed 0x00E1 State.reset).fetches 0x00E1 ∧ isUnknownOpcode 0x00E1 = true := by
  simp only [State.fetches]; decide
theorem test_witness_TimersTickOncePerCompletedStep :
    step (placed 0xF015 State.reset) = .next (after (placed 0xF015 State.reset)) ∧
      (after (placed 0xF015 State.reset)).latched = false ∧
      step (placed 0x00EE State.reset) = .next (after (placed 0x00EE State.reset)) ∧
      (after (placed 0x00EE State.reset)).latched = true := ⟨rfl, by decide, rfl, by decide⟩
theorem test_witness_FetchGuardRaises :
    (State.reset.setPc 0x0FFF).latched = false ∧ 0x0FFF ≤ (State.reset.setPc 0x0FFF).pc.toNat := by decide
theorem test_witness_JumpToTopFaultsOneStepLater : (placed 0x1FFF State.reset).executes (.jp 0xFFF) := by
  simp only [State.executes]; decide

/-- One state for each cause of a fault. -/
theorem test_witness_RaisedFaultIsPrecise :
    (State.reset.setPc 0x0FFF).latched = false ∧ (after (State.reset.setPc 0x0FFF)).latched = true ∧
      step (State.reset.setPc 0x0FFF) = .next (after (State.reset.setPc 0x0FFF)) ∧
      (placed 0x00EE State.reset).latched = false ∧ (after (placed 0x00EE State.reset)).latched = true ∧
      step (placed 0x00EE State.reset) = .next (after (placed 0x00EE State.reset)) :=
  ⟨by decide, by decide, rfl, by decide, by decide, rfl⟩

/-- A state whose next step meets the hypotheses of a statement about one step that may raise. -/
abbrev steps (s : State) : Prop := s.latched = false ∧ step s = .next (after s)

/-- Each cause at the boundary of its condition, and just inside. -/
theorem test_witness_FaultConditions :
    (steps (State.reset.setPc 0x0FFF) ∧ (after (State.reset.setPc 0x0FFF)).fault = .addressOverflow) ∧
      (steps (placed 0x0000 (State.reset.setPc 0x0FFE)) ∧
        (after (placed 0x0000 (State.reset.setPc 0x0FFE))).fault = .none) ∧
      (steps (placed 0x2300 { State.reset with sp := 16 }) ∧
        (after (placed 0x2300 { State.reset with sp := 16 })).fault = .stackOverflow) ∧
      (steps (placed 0x2300 { State.reset with sp := 15 }) ∧
        (after (placed 0x2300 { State.reset with sp := 15 })).fault = .none) ∧
      (steps (placed 0x00EE State.reset) ∧ (after (placed 0x00EE State.reset)).fault = .stackUnderflow) ∧
      (steps (placed 0x00EE { State.reset with sp := 1 }) ∧
        (after (placed 0x00EE { State.reset with sp := 1 })).fault = .none) ∧
      (steps (placed 0xE09E (regs [(0, 16)])) ∧ (after (placed 0xE09E (regs [(0, 16)]))).fault = .keyIndexRange) ∧
      (steps (placed 0xE0A1 (regs [(0, 15)])) ∧ (after (placed 0xE0A1 (regs [(0, 15)]))).fault = .none) := by
  refine ⟨⟨⟨?_, rfl⟩, ?_⟩, ⟨⟨?_, rfl⟩, ?_⟩, ⟨⟨?_, rfl⟩, ?_⟩, ⟨⟨?_, rfl⟩, ?_⟩, ⟨⟨?_, rfl⟩, ?_⟩, ⟨⟨?_, rfl⟩, ?_⟩,
    ⟨⟨?_, rfl⟩, ?_⟩, ⟨⟨?_, rfl⟩, ?_⟩⟩ <;> decide

theorem test_witness_StepResultSaysWhatHappened :
    (step (placed 0x6107 State.reset) = .next (after (placed 0x6107 State.reset)) ∧
      stepResult (placed 0x6107 State.reset) = some .ok) ∧
      stepResult (placed 0x512F State.reset) = some (.reported 0x512F) ∧
      stepResult (placed 0x00EE State.reset) = some (.faulted .stackUnderflow) :=
  ⟨⟨rfl, by decide⟩, by decide, by decide⟩

/-! ### Invariants, reset and the host's commands -/

/-- A state other than reset that meets the invariant. -/
theorem test_inv_pc_moved : (State.reset.setPc 0x0FFE).inv := ⟨rfl, by decide, by decide, rfl, rfl⟩

theorem test_witness_StepKeepsInvariant :
    (State.reset.setPc 0x0FFE).inv ∧ step (State.reset.setPc 0x0FFE) = .next (after (State.reset.setPc 0x0FFE)) :=
  ⟨test_inv_pc_moved, rfl⟩
theorem test_witness_CommandsKeepInvariant :
    (State.reset.setPc 0x0FFE).inv ∧
      perform otherFont (.keyDown 15) (State.reset.setPc 0x0FFE) = .done ((State.reset.setPc 0x0FFE).setKey 15 true) :=
  ⟨test_inv_pc_moved, rfl⟩
theorem test_witness_LoadWritesRom :
    (State.reset.setKey 4 true).justReset .default = true ∧
      ((State.resetWith otherFont).setKey 4 true).justReset otherFont = true ∧ (List.replicate 3584 (0x12 : Byte)).length ≤ 3584 ∧
      3584 < (List.replicate 3585 (0x12 : Byte)).length :=
  ⟨by decide, by decide, by rw [List.length_replicate], by rw [List.length_replicate]; decide⟩
theorem test_witness_BootGivesLaunchState :
    ([0x12, 0x00] : List Byte).length ≤ 3584 ∧
      ∀ c ∈ [Command.keyDown 15, .keyUp 0], ∃ k, c = .keyDown k ∨ c = .keyUp k :=
  ⟨by decide, by
    intro c hc
    simp only [List.mem_cons, List.not_mem_nil, or_false] at hc
    rcases hc with rfl | rfl
    · exact ⟨15, .inl rfl⟩
    · exact ⟨0, .inr rfl⟩⟩

/-- A core whose latch holds a fault. -/
def stopped : State := after (placed 0x00EE State.reset)

theorem test_witness_LatchIsSticky :
    stopped.latched = true ∧ Command.reset ∉ [Command.keyDown 4, .step, .clearDirty] ∧
      performAll otherFont [Command.keyDown 4, .step, .clearDirty] stopped = some (clearDirty (stopped.setKey 4 true)) := by decide

/-! ### Control transfer -/

theorem test_witness_ReturnPops :
    0 < ({ State.reset with sp := 1 } : State).sp.val ∧ 0 < ({ State.reset with sp := 16 } : State).sp.val ∧
      State.reset.sp.val = 0 := by decide
theorem test_witness_CallPushes :
    State.reset.sp.val < 16 ∧ ({ State.reset with sp := 15 } : State).sp.val < 16 ∧
      ({ State.reset with sp := 16 } : State).sp.val = 16 := by decide

/-- A call from 0x200 to 0x300, where a return stands. -/
def callReturn : State :=
  (placed 0x2300 State.reset).writeByte 0x301 0xEE

theorem test_witness_CallThenReturnRoundTrip :
    callReturn.executes (.call 0x300) ∧ callReturn.sp.val < 16 ∧ step callReturn = .next (after callReturn) ∧
      (after callReturn).executes .ret := by
  refine ⟨?_, by decide, rfl, ?_⟩ <;> simp only [State.executes] <;> decide

/-! ### Load and ALU, index and memory -/

theorem test_witness_AddSubtractAndFlag : (0xE : Reg) ≠ VF := by decide
theorem test_witness_ShiftsByOne : (0x0 : Reg) ≠ VF := by decide
theorem test_witness_DecimalDigitsStored : (placed 0xF033 State.reset).mem.wf = true := by decide
theorem test_witness_RegistersStored : (placed 0xFF55 State.reset).mem.wf = true ∧ (0xF : Reg).toNat ≤ (0xF : Reg).toNat := by
  decide
theorem test_witness_RegistersLoaded : (0xF : Reg).toNat ≤ (0xF : Reg).toNat := by decide
/-- An `Fx55` that stores over both bytes of the next word, and an `Fx33` whose last digit alone falls on it: the other
byte keeps its value. -/
theorem test_witness_StoreIsSeenByNextFetch :
    let s := placed 0xF155 (State.reset.setIndex 0x202)
    let s' := placed 0xF033 (State.reset.setIndex 0x200)
    (s.mem.wf = true ∧ s.executes (.ldMiVx 1) ∧ s.pc.toNat + 2 ≤ 0x0FFE ∧
      stores s (.ldMiVx 1) (s.pc.toNat + 2) 0 ∧ stores s (.ldMiVx 1) (s.pc.toNat + 3) 0) ∧
    (s'.mem.wf = true ∧ s'.executes (.ldBVx 0) ∧ s'.pc.toNat + 2 ≤ 0x0FFE ∧
      stores s' (.ldBVx 0) (s'.pc.toNat + 2) 0 ∧ ∀ b, ¬ stores s' (.ldBVx 0) (s'.pc.toNat + 3) b) := by
  refine ⟨⟨by decide, ?_, by decide, ⟨0, by decide⟩, ⟨1, by decide⟩⟩,
    ⟨by decide, ?_, by decide, ⟨2, by decide⟩, ?_⟩⟩
  · simp only [State.executes]; decide
  · simp only [State.executes]; decide
  · rintro b ⟨off, hoff, ha, -⟩
    have : ∀ off < 3, ((placed 0xF033 (State.reset.setIndex 0x200)).ea off).toNat ≠ 0x203 := by decide
    exact this off hoff ha

/-! ### Display -/

/-- The last sprite row and column of the largest sprite, drawn across both edges. -/
theorem test_witness_DrawSprite :
    let s := regs [(0, 63), (1, 31)]
    14 < (15 : Nibble).toNat ∧ 7 < 8 ∧ (13 : Fin 32).val = ((s.getV 1).toNat + 14) % 32 ∧
      (6 : Fin 64).val = ((s.getV 0).toNat + 7) % 64 := by decide
theorem test_witness_DrawTwiceErases : (0 : Reg) ≠ VF ∧ (0xE : Reg) ≠ VF := by decide

/-- A draw that changes a pixel, one that changes none, and a clear, each from `DIRTY` 0. -/
theorem test_witness_DirtyTellsMutation :
    let s := placed 0xD011 (sprite [0x80] [])
    let t := placed 0xD010 (sprite [0x80] [])
    let u := placed 0x00E0 State.reset
    step s = .next (after s) ∧ s.dirty = false ∧ (after s).dirty = true ∧ (after s).fb ≠ s.fb ∧
      step t = .next (after t) ∧ (after t).dirty = false ∧
      step u = .next (after u) ∧ u.dirty = false ∧ (after u).dirty = true ∧
      step (after u) = .next (after (after u)) := by
  refine ⟨rfl, ?_, ?_, ?_, rfl, ?_, rfl, ?_, ?_, rfl⟩ <;> decide

/-! ### Keys and timers -/

theorem test_witness_KeySkips :
    (15 : Nibble).toNat = ((regs [(0, 15)]).getV 0).toNat ∧ 15 < ((regs [(0, 16)]).getV 0).toNat := by decide
theorem test_witness_WaitForKey :
    (State.reset.setKey 15 true).keyPressed 15 = true ∧
      (∀ j, (State.reset.setKey 15 true).keyPressed j = true → j.toNat ≤ (15 : Nibble).toNat) ∧
      (State.reset.setKey 0 true).keyPressed 0 = true ∧
      (∀ j, (State.reset.setKey 0 true).keyPressed j = true → j.toNat ≤ (0 : Nibble).toNat) ∧
      ∀ k, State.reset.keyPressed k = false := by decide
theorem test_witness_TimerTransfers :
    (placed 0xF015 State.reset).executes (.ldDtVx 0) ∧ (placed 0xFF18 State.reset).executes (.ldStVx 0xF) ∧
      (placed 0xF107 State.reset).executes (.ldVxDt 1) ∧ ∃ t, exec (.drw 0 1 15) State.reset = .next t := by
  refine ⟨?_, ?_, ?_, _, rfl⟩ <;> simp only [State.executes] <;> decide
theorem test_witness_TimerCountsDown :
    let s := placed 0xF015 (regs [(0, 3)])
    let s' := placed 0xF018 (regs [(0, 3)])
    step s = .next (after s) ∧ s.executes (.ldDtVx 0) ∧
      completedSteps (fun i => match i with | .ldDtVx _ => true | _ => false) 1 (after s) (after (after s)) ∧
      step s' = .next (after s') ∧ s'.executes (.ldStVx 0) ∧
      completedSteps (fun i => match i with | .ldStVx _ => true | _ => false) 0 (after s') (after s') := by
  refine ⟨rfl, ?_, ⟨after (after (placed 0xF015 (regs [(0, 3)]))), rfl, by decide, ?_, rfl⟩, rfl, ?_, rfl⟩
  · simp only [State.executes]; decide
  · intro ins h
    have h' : decodeWord (after (placed 0xF015 (regs [(0, 3)]))).fetchWord = .ok (.sys 0) := by decide
    cases h'.symm.trans h
    rfl
  · simp only [State.executes]; decide

/-! ### Whole-machine rules -/

theorem test_witness_NothingWrittenOutsideTable : ∃ t, exec (.drw 0 1 15) State.reset = .next t := ⟨_, rfl⟩

/-- Two states that differ in DT, which `7xkk` does not read. -/
theorem test_witness_NothingReadOutsideTable :
    State.reset.mem.wf = true ∧ (State.reset.setDt 9).mem.wf = true ∧
      (∀ p, reads State.reset (.addVxKk 3 1) p → State.reset.obs p = (State.reset.setDt 9).obs p) ∧
      (∃ t, exec (.addVxKk 3 1) State.reset = .next t) ∧ ∃ t, exec (.addVxKk 3 1) (State.reset.setDt 9) = .next t :=
  ⟨rfl, rfl, fun p hp => by cases hp; rfl, ⟨_, rfl⟩, ⟨_, rfl⟩⟩

theorem test_witness_VfIsTheOnlyFlag :
    (∃ t, exec (.shl 0xE 0) State.reset = .next t) ∧ (0xE : Reg) ≠ VF ∧
      Instr.shl 0xE 0 ∈ [Instr.addVxVy 0xE 0, .sub 0xE 0, .shr 0xE 0, .subn 0xE 0, .shl 0xE 0] ∧
      (∃ t, exec (.drw 0xF 0xF 15) State.reset = .next t) ∧
      (∃ t, exec (.ldVxMi 0xE) State.reset = .next t) ∧ ¬ writes State.reset (.ldVxMi 0xE) (.v VF) :=
  ⟨⟨_, rfl⟩, by decide, by simp, ⟨_, rfl⟩, ⟨_, rfl⟩, by
    rintro ⟨r, hr, h⟩
    cases h
    exact absurd hr (by decide)⟩
theorem test_witness_NoStepWritesAKey : step (placed 0xF00A State.reset) = .next (after (placed 0xF00A State.reset)) := rfl
theorem test_witness_PartsDetermineState :
    (placed 0x1200 State.reset).mem.wf = true ∧
      ∀ p, (placed 0x1200 State.reset).obs p = (placed 0x1200 State.reset).obs p := ⟨by decide, fun _ => rfl⟩
theorem test_witness_EndedRunStaysEnded : (placed 0x1200 State.reset).runEnded :=
  ⟨0x200, by simp only [State.executes]; decide, by decide⟩

end Sys2Proof.Tests
end

section
/-! PROOF. What reset leaves in memory (spec/00_scope.md R7, spec/10_state.md R33). -/

namespace Sys2Proof.Machine

/-- Storing the bytes that unlisted addresses read as anyway lists nothing. -/
theorem Memory.writeList_unlisted {a : Nat} (bs : List Byte)
    (h : ∀ (i : Nat) (hi : i < bs.length), bs[i] = Memory.unlisted (a + i)) : Memory.writeList [] a bs = [] := by
  induction bs generalizing a with
  | nil => rfl
  | cons b bs ih =>
    have hb : b = Memory.unlisted a := h 0 (Nat.zero_lt_succ _)
    have hbs : ∀ (i : Nat) (hi : i < bs.length), bs[i] = Memory.unlisted (a + 1 + i) := fun i hi => by
      simpa [Nat.add_assoc, Nat.add_comm 1 i] using h (i + 1) (Nat.succ_lt_succ hi)
    rw [Memory.writeList, Memory.write, if_pos hb, ih hbs]

/-- Below 0x050 an unlisted address reads as the byte of the default table, whatever that byte is. -/
theorem Memory.unlisted_eq_getElem {i : Nat} (h : i < fontTable.length) : Memory.unlisted i = fontTable[i] := by
  have hi : i < Config.fontSize := Font.default.length_bytes ▸ h
  rw [Memory.unlisted, if_pos hi, List.getD_eq_getElem _ _ h]

/-- With the default `FONT` no byte differs from the base line (notes/assumptions/2). -/
theorem Memory.withFont_default : Memory.withFont Font.default = [] :=
  Memory.writeList_unlisted fontTable fun i hi => by
    rw [Config.fontBase, Nat.zero_add, Memory.unlisted_eq_getElem hi]

/-- The reset with the default `FONT` is `State.reset` (notes/assumptions/1). -/
theorem State.resetWith_default : State.resetWith Font.default = State.reset := by
  rw [State.resetWith, Memory.withFont_default, ← State.reset_mem]

/-- The font's bytes lie at the addresses below 0x050 (R33). -/
theorem State.getElem?_font_eq_readByte_resetWith (font : Font) {a : Addr} (h : a.toNat < 80) :
    font.bytes[a.toNat]? = some ((State.resetWith font).readByte a) := by
  have ha : a.toNat < font.bytes.length := font.length_bytes ▸ h
  rw [State.readByte, State.resetWith_mem, Memory.read_withFont, dif_pos ha, List.getElem?_eq_getElem ha]

/-- From 0x050 on memory is zero after reset (R33). -/
theorem State.readByte_resetWith_of_le (font : Font) {a : Addr} (h : 80 ≤ a.toNat) :
    (State.resetWith font).readByte a = 0 := by
  have ha : ¬ a.toNat < font.bytes.length := font.length_bytes ▸ Nat.not_lt.mpr h
  rw [State.readByte, State.resetWith_mem, Memory.read_withFont, dif_neg ha]

/-- The first byte of memory after reset is the one byte of `FONT` the spec fixes (R7). -/
theorem State.readByte_zero_resetWith (font : Font) : (State.resetWith font).readByte 0 = 0xF0 := by
  have h := State.getElem?_font_eq_readByte_resetWith font (a := 0) (by decide)
  exact Option.some.inj (h.symm.trans font.first_byte)

/-- Settles O20, from what a stored byte sequence reads back as; of the default table only its length is used. -/
theorem resetMemory : Obligations.ResetMemory :=
  ⟨State.resetWith_default.symm, fun font => ⟨State.readByte_zero_resetWith font,
    fun _ => State.getElem?_font_eq_readByte_resetWith font, fun _ => State.readByte_resetWith_of_le font⟩⟩

end Sys2Proof.Machine
end

section
/-! PROOF. The parts of the state, one by one: each part's number determines its value, and the parts with a memory in
canonical form determine the state (spec/10_state.md R20 to R31). -/

namespace Sys2Proof.Machine

variable {s t : State}

/-! ### A part's number determines its value -/

theorem boolToNat_inj {p q : Bool} : p.toNat = q.toNat ↔ p = q := by
  cases p <;> cases q <;> decide

theorem FaultCause.code_inj {c d : FaultCause} : c.code = d.code ↔ c = d := by
  cases c <;> cases d <;> decide

@[simp] theorem State.obs_v_eq_iff {r : Reg} : s.obs (.v r) = t.obs (.v r) ↔ s.getV r = t.getV r := BitVec.toNat_inj
@[simp] theorem State.obs_index_eq_iff : s.obs .index = t.obs .index ↔ s.index = t.index := BitVec.toNat_inj
@[simp] theorem State.obs_pc_eq_iff : s.obs .pc = t.obs .pc ↔ s.pc = t.pc := BitVec.toNat_inj
@[simp] theorem State.obs_sp_eq_iff : s.obs .sp = t.obs .sp ↔ s.sp = t.sp := Fin.val_inj
@[simp] theorem State.obs_stack_eq_iff {k : Fin 16} : s.obs (.stack k) = t.obs (.stack k) ↔ s.stack[k] = t.stack[k] :=
  BitVec.toNat_inj
@[simp] theorem State.obs_dt_eq_iff : s.obs .dt = t.obs .dt ↔ s.dt = t.dt := BitVec.toNat_inj
@[simp] theorem State.obs_st_eq_iff : s.obs .st = t.obs .st ↔ s.st = t.st := BitVec.toNat_inj
@[simp] theorem State.obs_key_eq_iff {k : Nibble} : s.obs (.key k) = t.obs (.key k) ↔ s.keyPressed k = t.keyPressed k :=
  boolToNat_inj
@[simp] theorem State.obs_pixel_eq_iff {row : Fin 32} {col : Fin 64} :
    s.obs (.pixel row col) = t.obs (.pixel row col) ↔ s.fb.pixel row col = t.fb.pixel row col :=
  boolToNat_inj
@[simp] theorem State.obs_dirty_eq_iff : s.obs .dirty = t.obs .dirty ↔ s.dirty = t.dirty :=
  boolToNat_inj
@[simp] theorem State.obs_fault_eq_iff : s.obs .fault = t.obs .fault ↔ s.fault = t.fault := FaultCause.code_inj
@[simp] theorem State.obs_faultPc_eq_iff : s.obs .faultPc = t.obs .faultPc ↔ s.faultPc = t.faultPc := BitVec.toNat_inj
@[simp] theorem State.obs_faultOp_eq_iff : s.obs .faultOp = t.obs .faultOp ↔ s.faultOp = t.faultOp := BitVec.toNat_inj
@[simp] theorem State.obs_mem_eq_iff {a : Addr} : s.obs (.mem a) = t.obs (.mem a) ↔ s.readByte a = t.readByte a :=
  BitVec.toNat_inj
@[simp] theorem State.obs_draws_eq_iff : s.obs .draws = t.obs .draws ↔ s.draws = t.draws := Iff.rfl

/-! ### A family of parts determines the field that holds it -/

theorem State.v_eq_of_getV (h : ∀ r, s.getV r = t.getV r) : s.v = t.v :=
  Vector.ext fun i hi => h (BitVec.ofFin ⟨i, hi⟩)

theorem State.keys_eq_of_keyPressed (h : ∀ k, s.keyPressed k = t.keyPressed k) : s.keys = t.keys :=
  Vector.ext fun i hi => h (BitVec.ofFin ⟨i, hi⟩)

theorem State.stack_eq_of_slots (h : ∀ k : Fin 16, s.stack[k] = t.stack[k]) : s.stack = t.stack :=
  Vector.ext fun i hi => h ⟨i, hi⟩

theorem Framebuffer.eq_of_pixel {fb fb' : Framebuffer} (h : ∀ row col, fb.pixel row col = fb'.pixel row col) : fb = fb' :=
  Vector.ext fun i hi => Vector.ext fun j hj => h ⟨i, hi⟩ ⟨j, hj⟩

/-! ### Memory in canonical form is determined by its reads -/

theorem Memory.wfFrom_cons {lo a : Nat} {b : Byte} {m : Memory} :
    Memory.wfFrom lo ((a, b) :: m) = true ↔
      lo ≤ a ∧ a < Config.memSize ∧ b ≠ Memory.unlisted a ∧ Memory.wfFrom (a + 1) m = true := by
  simp only [Memory.wfFrom, Bool.and_eq_true, decide_eq_true_eq, bne_iff_ne, and_assoc]

@[simp] theorem Memory.read_cons_same (a : Nat) (b : Byte) (m : Memory) : Memory.read ((a, b) :: m) a = b := if_pos rfl

theorem Memory.read_cons_ne {a a' : Nat} (h : a ≠ a') (b : Byte) (m : Memory) :
    Memory.read ((a, b) :: m) a' = Memory.read m a' := if_neg h

/-- A memory that lists only addresses above `a` does not read at `a` like one that lists `a`. -/
theorem Memory.read_ne_of_listed {lo a : Nat} {b : Byte} {m m' : Memory} (hm : Memory.wfFrom lo ((a, b) :: m) = true)
    (hm' : Memory.wfFrom (a + 1) m' = true) : Memory.read ((a, b) :: m) a ≠ m'.read a := by
  obtain ⟨-, -, hb, -⟩ := Memory.wfFrom_cons.mp hm
  rwa [Memory.read_cons_same, Memory.read_of_lt hm' (Nat.lt_succ_self a)]

theorem Memory.eq_of_read_from {lo : Nat} {m m' : Memory} (hm : Memory.wfFrom lo m = true)
    (hm' : Memory.wfFrom lo m' = true) (h : ∀ a < Config.memSize, m.read a = m'.read a) : m = m' := by
  induction m generalizing lo m' with
  | nil =>
    cases m' with
    | nil => rfl
    | cons e m' =>
      obtain ⟨k, c⟩ := e
      obtain ⟨-, hk, -, -⟩ := Memory.wfFrom_cons.mp hm'
      exact absurd (h k hk).symm (Memory.read_ne_of_listed hm' rfl)
  | cons e m ih =>
    obtain ⟨a, b⟩ := e
    obtain ⟨-, ha, hb, hrest⟩ := Memory.wfFrom_cons.mp hm
    cases m' with
    | nil => exact absurd (h a ha) (Memory.read_ne_of_listed hm rfl)
    | cons e' m' =>
      obtain ⟨k, c⟩ := e'
      obtain ⟨-, hk, hc, hrest'⟩ := Memory.wfFrom_cons.mp hm'
      have hak : ¬ a < k := fun hlt =>
        Memory.read_ne_of_listed hm (Memory.wfFrom_cons.mpr ⟨hlt, hk, hc, hrest'⟩) (h a ha)
      have hka : ¬ k < a := fun hlt =>
        Memory.read_ne_of_listed hm' (Memory.wfFrom_cons.mpr ⟨hlt, ha, hb, hrest⟩) (h k hk).symm
      obtain rfl : a = k := by omega
      obtain rfl : b = c := by simpa only [Memory.read_cons_same] using h a ha
      have htail : ∀ x < Config.memSize, Memory.read m x = Memory.read m' x := fun x hx => by
        by_cases hxa : a = x
        · subst hxa
          rw [Memory.read_of_lt hrest (Nat.lt_succ_self a), Memory.read_of_lt hrest' (Nat.lt_succ_self a)]
        · simpa only [Memory.read_cons_ne hxa] using h x hx
      rw [ih hrest hrest' htail]

/-- Two memories in canonical form that read alike at every address are equal. -/
theorem State.mem_eq_of_readByte (hs : s.mem.wf = true) (ht : t.mem.wf = true)
    (h : ∀ a, s.readByte a = t.readByte a) : s.mem = t.mem :=
  Memory.eq_of_read_from hs ht fun a ha => by
    have := h (BitVec.ofNat 12 a)
    simpa only [State.readByte, BitVec.toNat_ofNat, Nat.mod_eq_of_lt ha] using this

/-- Settles O54: each part's number determines the field, or the piece of a field, that the part names. -/
theorem partsDetermineState : Obligations.PartsDetermineState := by
  intro s t hs ht h
  have hv : s.v = t.v := State.v_eq_of_getV fun r => State.obs_v_eq_iff.mp (h (.v r))
  have hstack : s.stack = t.stack := State.stack_eq_of_slots fun k => State.obs_stack_eq_iff.mp (h (.stack k))
  have hkeys : s.keys = t.keys := State.keys_eq_of_keyPressed fun k => State.obs_key_eq_iff.mp (h (.key k))
  have hfb : s.fb = t.fb := Framebuffer.eq_of_pixel fun row col => State.obs_pixel_eq_iff.mp (h (.pixel row col))
  have hmem : s.mem = t.mem := State.mem_eq_of_readByte hs ht fun a => State.obs_mem_eq_iff.mp (h (.mem a))
  have hindex := State.obs_index_eq_iff.mp (h .index)
  have hpc := State.obs_pc_eq_iff.mp (h .pc)
  have hsp := State.obs_sp_eq_iff.mp (h .sp)
  have hdt := State.obs_dt_eq_iff.mp (h .dt)
  have hst := State.obs_st_eq_iff.mp (h .st)
  have hdirty := State.obs_dirty_eq_iff.mp (h .dirty)
  have hfault := State.obs_fault_eq_iff.mp (h .fault)
  have hfaultPc := State.obs_faultPc_eq_iff.mp (h .faultPc)
  have hfaultOp := State.obs_faultOp_eq_iff.mp (h .faultOp)
  have hdraws := State.obs_draws_eq_iff.mp (h .draws)
  cases s
  cases t
  simp_all only

end Sys2Proof.Machine
end

section
/-! PROOF. The frame of every operation on the state: the parts it may change, once, so that no later proof unfolds one
(spec/10_state.md R20 to R30). -/

namespace Sys2Proof.Machine

/-! ### Frames -/

section
variable {W W' : Part → Prop} {s t u : State}

theorem Frame.refl (W : Part → Prop) (s : State) : Frame W s s := fun _ _ => rfl

theorem Frame.trans (h : Frame W s t) (h' : Frame W t u) : Frame W s u := fun p hp => (h' p hp).trans (h p hp)

theorem Frame.mono (h : Frame W s t) (hW : ∀ p, W p → W' p) : Frame W' s t := fun p hp => h p fun hp' => hp (hW p hp')

/-- An operation that writes one part stays within every frame that lists the part. -/
theorem Frame.widen {q : Part} (h : Frame (· = q) s t) (hq : W q) : Frame W s t := h.mono fun _ hp => hp ▸ hq

/-! What a frame says of one piece of state. -/

theorem Frame.getV_eq (h : Frame W s t) {r : Reg} (hr : ¬ W (.v r)) : t.getV r = s.getV r := State.obs_v_eq_iff.mp (h _ hr)
theorem Frame.pc_eq (h : Frame W s t) (hp : ¬ W .pc) : t.pc = s.pc := State.obs_pc_eq_iff.mp (h _ hp)
theorem Frame.slot_eq (h : Frame W s t) {k : Fin 16} (hk : ¬ W (.stack k)) : t.stack[k] = s.stack[k] :=
  State.obs_stack_eq_iff.mp (h _ hk)
theorem Frame.keyPressed_eq (h : Frame W s t) {k : Nibble} (hk : ¬ W (.key k)) : t.keyPressed k = s.keyPressed k :=
  State.obs_key_eq_iff.mp (h _ hk)
theorem Frame.fault_eq (h : Frame W s t) (hf : ¬ W .fault) : t.fault = s.fault := State.obs_fault_eq_iff.mp (h _ hf)
theorem Frame.faultPc_eq (h : Frame W s t) (hf : ¬ W .faultPc) : t.faultPc = s.faultPc :=
  State.obs_faultPc_eq_iff.mp (h _ hf)
theorem Frame.faultOp_eq (h : Frame W s t) (hf : ¬ W .faultOp) : t.faultOp = s.faultOp :=
  State.obs_faultOp_eq_iff.mp (h _ hf)
end

/-! ### The stack pointer and the slots, written one at a time

The record updates of `State.push?` and `State.pop?`, named so that each has a frame of its own (R24). -/

/-- `SP <- n`. -/
def State.setSp (s : State) (n : Fin 17) : State := { s with sp := n }

/-- `STACK[k] <- a`. -/
def State.setSlot (s : State) (k : Fin 16) (a : Word) : State := { s with stack := s.stack.set k.val a k.isLt }

theorem State.push?_of_lt {s : State} (a : Word) (h : s.sp.val < 16) :
    s.push? a = some ((s.setSlot ⟨s.sp.val, h⟩ a).setSp ⟨s.sp.val + 1, by omega⟩) :=
  State.push?_eq_some.mpr ⟨h, rfl⟩

theorem State.pop?_of_pos {s : State} (h : 0 < s.sp.val) :
    s.pop? = some (s.stack[s.sp.val - 1]'(by omega), s.setSp ⟨s.sp.val - 1, by omega⟩) :=
  State.pop?_eq_some.mpr ⟨h, rfl, rfl⟩

theorem State.getElem_setSlot (s : State) (k j : Fin 16) (a : Word) :
    (s.setSlot k a).stack[j] = if j = k then a else s.stack[j] := by
  simp only [State.setSlot, Fin.getElem_fin, Vector.getElem_set, Fin.val_inj, eq_comm]

/-! ### Operations that write one part -/

section
variable (s : State)

theorem State.frame_setV (r : Reg) (b : Byte) : Frame (· = .v r) s (s.setV r b) := by
  intro p hp
  cases p with
  | v q =>
    have hq : q ≠ r := fun e => hp (e ▸ rfl)
    exact State.obs_v_eq_iff.mpr (s.getV_setV_ne hq b)
  | _ => rfl

theorem State.frame_setFlag (f : Bool) : Frame (· = .v VF) s (s.setFlag f) := s.frame_setV VF (flagByte f)

theorem State.frame_setIndex (w : Word) : Frame (· = .index) s (s.setIndex w) := by
  intro p hp
  cases p with
  | index => exact absurd rfl hp
  | _ => rfl

theorem State.frame_setPc (w : Word) : Frame (· = .pc) s (s.setPc w) := by
  intro p hp
  cases p with
  | pc => exact absurd rfl hp
  | _ => rfl

theorem State.frame_advance : Frame (· = .pc) s s.advance := s.frame_setPc (s.pc + 2)

theorem State.frame_skipIf (taken : Bool) : Frame (· = .pc) s (s.skipIf taken) := s.frame_setPc _

theorem State.frame_setSp (n : Fin 17) : Frame (· = .sp) s (s.setSp n) := by
  intro p hp
  cases p with
  | sp => exact absurd rfl hp
  | _ => rfl

theorem State.frame_setSlot (k : Fin 16) (a : Word) : Frame (· = .stack k) s (s.setSlot k a) := by
  intro p hp
  cases p with
  | stack j =>
    have hj : j ≠ k := fun e => hp (e ▸ rfl)
    exact State.obs_stack_eq_iff.mpr (by rw [State.getElem_setSlot, if_neg hj])
  | _ => rfl

theorem State.frame_setDt (b : Byte) : Frame (· = .dt) s (s.setDt b) := by
  intro p hp
  cases p with
  | dt => exact absurd rfl hp
  | _ => rfl

theorem State.frame_setSt (b : Byte) : Frame (· = .st) s (s.setSt b) := by
  intro p hp
  cases p with
  | st => exact absurd rfl hp
  | _ => rfl

theorem State.frame_setKey (k : Nibble) (b : Bool) : Frame (· = .key k) s (s.setKey k b) := by
  intro p hp
  cases p with
  | key q =>
    have hq : q ≠ k := fun e => hp (e ▸ rfl)
    exact State.obs_key_eq_iff.mpr (by rw [State.keyPressed_setKey, if_neg hq])
  | _ => rfl

theorem frame_clearDirty : Frame (· = .dirty) s (clearDirty s) := by
  intro p hp
  cases p with
  | dirty => exact absurd rfl hp
  | _ => rfl

theorem State.frame_writeByte (a : Addr) (b : Byte) : Frame (· = .mem a) s (s.writeByte a b) := by
  intro p hp
  cases p with
  | mem a' =>
    have ha : a' ≠ a := fun e => hp (e ▸ rfl)
    exact State.obs_mem_eq_iff.mpr (s.readByte_writeByte_ne ha b)
  | _ => rfl

theorem State.frame_afterDraw : Frame (· = .draws) s s.afterDraw := by
  intro p hp
  cases p with
  | draws => exact absurd rfl hp
  | _ => rfl

/-! ### Operations that write several parts -/

/-- A new picture changes `DIRTY` and the pixels in which it differs from the old one. -/
theorem State.frame_setPicture (fb : Framebuffer) (m : Bool) :
    Frame (fun p => p = .dirty ∨ ∃ row col, p = .pixel row col ∧ fb.pixel row col ≠ s.fb.pixel row col) s
      (s.setPicture fb m) := by
  intro p hp
  cases p with
  | dirty => exact absurd (.inl rfl) hp
  | pixel row col =>
    have hsame : fb.pixel row col = s.fb.pixel row col :=
      Classical.byContradiction fun hne => hp (.inr ⟨row, col, rfl, hne⟩)
    exact State.obs_pixel_eq_iff.mpr hsame
  | _ => rfl

theorem State.frame_raise (c : FaultCause) (pc0 op : Word) : Frame latchParts s (s.raise c pc0 op) := by
  intro p hp
  cases p with
  | pc | fault | faultPc | faultOp => exact absurd trivial hp
  | _ => rfl

theorem State.frame_raiseInstr (c : FaultCause) (op : Word) : Frame latchParts s (s.raiseInstr c op) :=
  s.frame_raise c s.pc0 op

theorem State.frame_tick : Frame (fun p => p = .dt ∨ p = .st) s s.tick := by
  intro p hp
  cases p with
  | dt => exact absurd (.inl rfl) hp
  | st => exact absurd (.inr rfl) hp
  | _ => rfl

theorem State.frame_postExecute : Frame (fun p => p = .dt ∨ p = .st) s s.postExecute := by
  unfold State.postExecute
  split
  · exact Frame.refl _ s
  · exact s.frame_tick

theorem State.frame_resultThenFlag (x : Reg) (b : Byte) (f : Bool) :
    Frame (fun p => p = .v x ∨ p = .v VF) s (s.resultThenFlag x b f) :=
  ((s.frame_setV x b).widen (.inl rfl)).trans ((State.frame_setFlag _ f).widen (.inr rfl))

theorem State.frame_flagThenResult (x : Reg) (f : Bool) (b : Byte) :
    Frame (fun p => p = .v x ∨ p = .v VF) s (s.flagThenResult x f b) :=
  ((s.frame_setFlag f).widen (.inr rfl)).trans ((State.frame_setV _ x b).widen (.inl rfl))

/-- A sequence of operations stays within a frame that each of them stays within. -/
theorem Frame.foldl {W : Part → Prop} {α : Type} {f : State → α → State} {l : List α}
    (hf : ∀ a ∈ l, ∀ t, Frame W t (f t a)) (s : State) : Frame W s (l.foldl f s) := by
  induction l generalizing s with
  | nil => exact Frame.refl W s
  | cons a l ih =>
    exact (hf a List.mem_cons_self s).trans (ih (fun b hb => hf b (List.mem_cons_of_mem a hb)) (f s a))

theorem State.frame_storeRegs (x : Reg) :
    Frame (fun p => ∃ off, off ≤ x.toNat ∧ p = .mem (s.ea off)) s (s.storeRegs x) :=
  Frame.foldl (fun i hi t => (t.frame_writeByte _ _).widen ⟨i, Nat.lt_succ_iff.mp (List.mem_range.mp hi), rfl⟩) s

theorem State.frame_loadRegs (x : Reg) :
    Frame (fun p => ∃ r : Reg, r.toNat ≤ x.toNat ∧ p = .v r) s (s.loadRegs x) := by
  refine Frame.foldl (fun i hi t => (t.frame_setV _ _).widen ⟨BitVec.ofNat 4 i, ?_, rfl⟩) s
  have hix : i < x.toNat + 1 := List.mem_range.mp hi
  rw [BitVec.toNat_ofNat]
  omega

end

/-! ### The blit, as propositions over the sprite's pixels (R172, R173) -/

/-- The sprite has a pixel of 1 that lands on this row and column. -/
def State.spriteLit (s : State) (vx vy : Byte) (n : Nat) (row : Fin 32) (col : Fin 64) : Bool :=
  (List.range n).any fun r => decide (row = spriteRow vy r) &&
    (List.range 8).any fun b => decide (col = spriteCol vx b) && spriteBit (s.readByte (s.ea r)) b

section
variable {s : State} {vx vy : Byte} {n : Nat} {row : Fin 32} {col : Fin 64}

theorem State.spriteLit_iff : s.spriteLit vx vy n row col = true ↔
    ∃ r b, r < n ∧ b < 8 ∧ row = spriteRow vy r ∧ col = spriteCol vx b ∧ spriteBit (s.readByte (s.ea r)) b = true := by
  simp only [State.spriteLit, List.any_eq_true, List.mem_range, Bool.and_eq_true, decide_eq_true_eq]
  constructor
  · rintro ⟨r, hr, hrow, b, hb, hcol, hbit⟩
    exact ⟨r, b, hr, hb, hrow, hcol, hbit⟩
  · rintro ⟨r, b, hr, hb, hrow, hcol, hbit⟩
    exact ⟨r, hr, hrow, b, hb, hcol, hbit⟩

theorem State.blit_pixel (hn : n ≤ 32) :
    (s.blit vx vy n).fb.pixel row col = (s.fb.pixel row col ^^ s.spriteLit vx vy n row col) :=
  (s.blit_eq vx vy n hn).1 row col

theorem State.blit_hit_iff (hn : n ≤ 32) : (s.blit vx vy n).hit = true ↔
    ∃ r b, r < n ∧ b < 8 ∧ spriteBit (s.readByte (s.ea r)) b = true ∧
      s.fb.pixel (spriteRow vy r) (spriteCol vx b) = true := by
  rw [(s.blit_eq vx vy n hn).2.1]
  simp only [List.any_eq_true, List.mem_range, Bool.and_eq_true, exists_and_left]

theorem State.blit_changed_iff (hn : n ≤ 32) : (s.blit vx vy n).changed = true ↔
    ∃ r b, r < n ∧ b < 8 ∧ spriteBit (s.readByte (s.ea r)) b = true := by
  rw [(s.blit_eq vx vy n hn).2.2]
  simp only [List.any_eq_true, List.mem_range, exists_and_left]

/-- A blit changes only pixels that the sprite's rows and columns name (R170). -/
theorem State.blit_pixel_ne (hn : n ≤ 32) (h : (s.blit vx vy n).fb.pixel row col ≠ s.fb.pixel row col) :
    ∃ r b, r < n ∧ b < 8 ∧ row = spriteRow vy r ∧ col = spriteCol vx b := by
  rw [State.blit_pixel hn] at h
  have hlit : s.spriteLit vx vy n row col = true := by
    by_contra hne
    rw [Bool.not_eq_true] at hne
    exact h (by rw [hne, Bool.xor_false])
  obtain ⟨r, b, hr, hb, hrow, hcol, -⟩ := State.spriteLit_iff.mp hlit
  exact ⟨r, b, hr, hb, hrow, hcol⟩
end

end Sys2Proof.Machine
end

section
/-! PROOF. What the execute phase of each instruction can write (spec/10_state.md R35), and what follows of VF and of the
keys. -/

namespace Sys2Proof.Machine

section
variable {s t : State}

/-! ### The five instructions with two outcomes -/

/-- `00EE` raises on an empty stack and else pops (R110). -/
theorem exec_ret_cases (h : exec .ret s = .next t) :
    (s.sp.val = 0 ∧ t = s.raiseInstr .stackUnderflow (encode .ret)) ∨
      ∃ hpos : 0 < s.sp.val,
        t = (s.setSp ⟨s.sp.val - 1, by omega⟩).setPc (s.stack[s.sp.val - 1]'(by omega)) := by
  rw [exec, execRet] at h
  rcases Nat.eq_zero_or_pos s.sp.val with hsp | hpos
  · rw [State.pop?_eq_none.mpr hsp] at h
    exact .inl ⟨hsp, (Host.Outcome.next.inj h).symm⟩
  · rw [State.pop?_of_pos hpos] at h
    exact .inr ⟨hpos, (Host.Outcome.next.inj h).symm⟩

/-- `2nnn` raises on a full stack and else pushes the advanced PC and jumps (R112). -/
theorem exec_call_cases {nnn : Addr} (h : exec (.call nnn) s = .next t) :
    (s.sp.val = 16 ∧ t = s.raiseInstr .stackOverflow (encode (.call nnn))) ∨
      ∃ hlt : s.sp.val < 16,
        t = ((s.setSlot ⟨s.sp.val, hlt⟩ s.pc).setSp ⟨s.sp.val + 1, by omega⟩).setPc (zextAddr nnn) := by
  rw [exec, execCall] at h
  rcases Nat.lt_or_ge s.sp.val 16 with hlt | hge
  · rw [State.push?_of_lt _ hlt] at h
    exact .inr ⟨hlt, (Host.Outcome.next.inj h).symm⟩
  · have hsp : s.sp.val = 16 := by omega
    rw [State.push?_eq_none.mpr hsp] at h
    exact .inl ⟨hsp, (Host.Outcome.next.inj h).symm⟩

/-- `Ex9E` raises on an index above 15 and else skips if the key is pressed (R190, R192). -/
theorem exec_skp_cases {x : Reg} (h : exec (.skp x) s = .next t) :
    (15 < (s.getV x).toNat ∧ t = s.raiseInstr .keyIndexRange (encode (.skp x))) ∨
      ∃ k : Nibble, k.toNat = (s.getV x).toNat ∧ t = s.skipIf (s.keyPressed k) := by
  rw [exec, execSkp] at h
  cases hk : keyIndex? (s.getV x) with
  | none =>
    rw [hk] at h
    exact .inl ⟨keyIndex?_eq_none.mp hk, (Host.Outcome.next.inj h).symm⟩
  | some k =>
    rw [hk] at h
    exact .inr ⟨k, keyIndex?_eq_some.mp hk, (Host.Outcome.next.inj h).symm⟩

/-- `ExA1` raises on an index above 15 and else skips if the key is not pressed (R191, R192). -/
theorem exec_sknp_cases {x : Reg} (h : exec (.sknp x) s = .next t) :
    (15 < (s.getV x).toNat ∧ t = s.raiseInstr .keyIndexRange (encode (.sknp x))) ∨
      ∃ k : Nibble, k.toNat = (s.getV x).toNat ∧ t = s.skipIf (!s.keyPressed k) := by
  rw [exec, execSknp] at h
  cases hk : keyIndex? (s.getV x) with
  | none =>
    rw [hk] at h
    exact .inl ⟨keyIndex?_eq_none.mp hk, (Host.Outcome.next.inj h).symm⟩
  | some k =>
    rw [hk] at h
    exact .inr ⟨k, keyIndex?_eq_some.mp hk, (Host.Outcome.next.inj h).symm⟩

/-- `Fx0A` rewinds PC when no key is pressed and else stores the last key of the scan (R193). -/
theorem exec_ldVxK_cases {x : Reg} (h : exec (.ldVxK x) s = .next t) :
    (s.lastPressed = none ∧ t = s.setPc (s.pc - 2)) ∨
      ∃ k, s.lastPressed = some k ∧ t = s.setV x (BitVec.ofNat 8 k) := by
  rw [exec, execLdVxK] at h
  cases hk : s.lastPressed with
  | none =>
    rw [hk] at h
    exact .inl ⟨rfl, (Host.Outcome.next.inj h).symm⟩
  | some k =>
    rw [hk] at h
    exact .inr ⟨k, rfl, (Host.Outcome.next.inj h).symm⟩

/-! ### The frame of the execute phase -/

theorem exec_ret_frame (h : exec .ret s = .next t) : Frame (writes s .ret) s t := by
  obtain ⟨-, rfl⟩ | ⟨hpos, rfl⟩ := exec_ret_cases h
  · exact (s.frame_raiseInstr _ _).mono fun p hp => Or.inr hp
  · exact ((s.frame_setSp _).widen (Or.inl rfl)).trans ((State.frame_setPc _ _).widen (Or.inr trivial))

theorem exec_call_frame {nnn : Addr} (h : exec (.call nnn) s = .next t) : Frame (writes s (.call nnn)) s t := by
  obtain ⟨-, rfl⟩ | ⟨hlt, rfl⟩ := exec_call_cases h
  · exact (s.frame_raiseInstr _ _).mono fun p hp => Or.inr (Or.inr hp)
  · have hslot : writes s (.call nnn) (.stack ⟨s.sp.val, hlt⟩) := Or.inr (Or.inl ⟨_, rfl, rfl⟩)
    exact (((s.frame_setSlot _ _).widen hslot).trans ((State.frame_setSp _ _).widen (Or.inl rfl))).trans
      ((State.frame_setPc _ _).widen (Or.inr (Or.inr trivial)))

theorem exec_skp_frame {x : Reg} (h : exec (.skp x) s = .next t) : Frame (writes s (.skp x)) s t := by
  obtain ⟨-, rfl⟩ | ⟨k, -, rfl⟩ := exec_skp_cases h
  · exact s.frame_raiseInstr _ _
  · exact (s.frame_skipIf _).widen trivial

theorem exec_sknp_frame {x : Reg} (h : exec (.sknp x) s = .next t) : Frame (writes s (.sknp x)) s t := by
  obtain ⟨-, rfl⟩ | ⟨k, -, rfl⟩ := exec_sknp_cases h
  · exact s.frame_raiseInstr _ _
  · exact (s.frame_skipIf _).widen trivial

theorem exec_ldVxK_frame {x : Reg} (h : exec (.ldVxK x) s = .next t) : Frame (writes s (.ldVxK x)) s t := by
  obtain ⟨-, rfl⟩ | ⟨k, -, rfl⟩ := exec_ldVxK_cases h
  · exact (s.frame_setPc _).widen (Or.inr rfl)
  · exact (s.frame_setV x _).widen (Or.inl rfl)

theorem exec_cls_frame (h : exec .cls s = .next t) : Frame (writes s .cls) s t := by
  obtain rfl := Host.Outcome.next.inj h
  refine (s.frame_setPicture _ _).mono ?_
  rintro p (rfl | ⟨row, col, rfl, -⟩)
  · exact Or.inl rfl
  · exact Or.inr ⟨row, col, rfl⟩

theorem exec_drw_frame {x y : Reg} {n : Nibble} (h : exec (.drw x y n) s = .next t) :
    Frame (writes s (.drw x y n)) s t := by
  obtain rfl := Host.Outcome.next.inj h
  refine ((s.frame_setPicture _ _).mono ?_).trans ((State.frame_setFlag _ _).widen (Or.inl rfl))
  rintro p (rfl | ⟨row, col, rfl, hne⟩)
  · exact Or.inr (Or.inl rfl)
  · obtain ⟨r, b, hr, hb, rfl, rfl⟩ := State.blit_pixel_ne (by omega) hne
    exact Or.inr (Or.inr ⟨r, b, hr, hb, rfl⟩)

theorem exec_ldBVx_frame {x : Reg} (h : exec (.ldBVx x) s = .next t) : Frame (writes s (.ldBVx x)) s t := by
  obtain rfl := Host.Outcome.next.inj h
  have hdigit : ∀ off < 3, writes s (.ldBVx x) (.mem (s.ea off)) := fun off hoff => ⟨off, hoff, rfl⟩
  exact (((s.frame_writeByte _ _).widen (hdigit 0 (by decide))).trans
    ((State.frame_writeByte _ _ _).widen (hdigit 1 (by decide)))).trans
      ((State.frame_writeByte _ _ _).widen (hdigit 2 (by decide)))

/-- The execute phase of an instruction changes only what the table lists as written by it (R35). -/
theorem exec_frame {i : Instr} (h : exec i s = .next t) : Frame (writes s i) s t := by
  cases i with
  | cls => exact exec_cls_frame h
  | ret => exact exec_ret_frame h
  | call nnn => exact exec_call_frame h
  | drw x y n => exact exec_drw_frame h
  | skp x => exact exec_skp_frame h
  | sknp x => exact exec_sknp_frame h
  | ldVxK x => exact exec_ldVxK_frame h
  | ldBVx x => exact exec_ldBVx_frame h
  | sys nnn => exact Host.Outcome.next.inj h ▸ Frame.refl _ s
  | jp nnn | jpV0 nnn => exact Host.Outcome.next.inj h ▸ s.frame_setPc _
  | seVxKk x y | sneVxKk x y | seVxVy x y | sneVxVy x y => exact Host.Outcome.next.inj h ▸ s.frame_skipIf _
  | ldVxKk x y | addVxKk x y | ldVxVy x y | orVxVy x y | andVxVy x y | xorVxVy x y | ldVxDt x =>
    exact Host.Outcome.next.inj h ▸ s.frame_setV x _
  | addVxVy x y | sub x y | subn x y => exact Host.Outcome.next.inj h ▸ s.frame_resultThenFlag x _ _
  | shr x y | shl x y => exact Host.Outcome.next.inj h ▸ s.frame_flagThenResult x _ _
  | rnd x kk =>
    exact Host.Outcome.next.inj h ▸
      (s.frame_afterDraw.widen (Or.inr rfl)).trans ((State.frame_setV _ x _).widen (Or.inl rfl))
  | ldINnn nnn => exact Host.Outcome.next.inj h ▸ s.frame_setIndex _
  | addIVx x | ldFVx x => exact Host.Outcome.next.inj h ▸ s.frame_setIndex _
  | ldDtVx x => exact Host.Outcome.next.inj h ▸ s.frame_setDt _
  | ldStVx x => exact Host.Outcome.next.inj h ▸ s.frame_setSt _
  | ldMiVx x => exact Host.Outcome.next.inj h ▸ s.frame_storeRegs x
  | ldVxMi x => exact Host.Outcome.next.inj h ▸ s.frame_loadRegs x
end

/-- Settles O50: each operation's frame, composed along the instruction. -/
theorem nothingWrittenOutsideTable : Obligations.NothingWrittenOutsideTable := fun _ _ _ => exec_frame

/-! ### VF and the keys -/

theorem flagByte_eq_zero_or_one (f : Bool) : flagByte f = 0 ∨ flagByte f = 1 := by
  cases f
  · exact .inl rfl
  · exact .inr rfl

theorem State.getV_VF_resultThenFlag (s : State) (x : Reg) (b : Byte) (f : Bool) :
    (s.resultThenFlag x b f).getV VF = flagByte f := State.getV_setFlag_VF _ f

theorem State.getV_VF_flagThenResult (s : State) {x : Reg} (hx : x ≠ VF) (f : Bool) (b : Byte) :
    (s.flagThenResult x f b).getV VF = flagByte f := by
  rw [State.getV_flagThenResult, if_neg hx.symm, if_pos rfl]

/-- The five ALU instructions that set a flag leave one in VF when VF is not their destination (R141, R142). -/
theorem exec_alu_flag {s t : State} {x y : Reg} {i : Instr} (hx : x ≠ VF)
    (hi : i ∈ [Instr.addVxVy x y, .sub x y, .shr x y, .subn x y, .shl x y]) (h : exec i s = .next t) :
    ∃ f, t.getV VF = flagByte f := by
  simp only [List.mem_cons, List.not_mem_nil, or_false] at hi
  rcases hi with rfl | rfl | rfl | rfl | rfl
  · exact Host.Outcome.next.inj h ▸ ⟨_, s.getV_VF_resultThenFlag x _ _⟩
  · exact Host.Outcome.next.inj h ▸ ⟨_, s.getV_VF_resultThenFlag x _ _⟩
  · exact Host.Outcome.next.inj h ▸ ⟨_, s.getV_VF_flagThenResult hx _ _⟩
  · exact Host.Outcome.next.inj h ▸ ⟨_, s.getV_VF_resultThenFlag x _ _⟩
  · exact Host.Outcome.next.inj h ▸ ⟨_, s.getV_VF_flagThenResult hx _ _⟩

/-- A draw leaves its collision flag in VF (R172). -/
theorem exec_drw_flag {s t : State} {x y : Reg} {n : Nibble} (h : exec (.drw x y n) s = .next t) :
    ∃ f, t.getV VF = flagByte f :=
  Host.Outcome.next.inj h ▸ ⟨_, State.getV_setFlag_VF _ _⟩

/-- Settles O52: the last write of the six is a flag, and the others are within their frame. -/
theorem vfIsTheOnlyFlag : Obligations.VfIsTheOnlyFlag := by
  intro s t x y n i h
  refine ⟨fun hx hi => ?_, fun hi => ?_, fun hw => (exec_frame h).getV_eq hw⟩
  · obtain ⟨f, hf⟩ := exec_alu_flag hx hi h
    exact hf ▸ flagByte_eq_zero_or_one f
  · subst hi
    obtain ⟨f, hf⟩ := exec_drw_flag h
    exact hf ▸ flagByte_eq_zero_or_one f

/-- No instruction lists a key among its writes (R35). -/
theorem not_writes_key (s : State) (i : Instr) (k : Nibble) : ¬ writes s i (.key k) := by
  cases i <;> simp [writes, latchParts]

/-- Settles O53: every phase of a step stays within a frame without the keys. -/
theorem noStepWritesAKey : Obligations.NoStepWritesAKey := by
  intro s t h k
  have hpost : ∀ u : State, u.postExecute.keyPressed k = u.keyPressed k := fun u =>
    u.frame_postExecute.keyPressed_eq (by simp)
  have hadv : s.advance.keyPressed k = s.keyPressed k := s.frame_advance.keyPressed_eq (by simp)
  obtain ⟨-, rfl⟩ | ⟨-, -, rfl⟩ | ⟨-, -, i, u, -, hu, rfl⟩ | ⟨-, -, e, -, rfl⟩ := step_next_cases h
  · rfl
  · exact (s.frame_raise _ _ _).keyPressed_eq id
  · rw [hpost, (exec_frame hu).keyPressed_eq (not_writes_key _ i k), hadv]
  · rw [hpost, hadv]

end Sys2Proof.Machine
end

section
/-! PROOF. The invariant: what reset gives, what the execute phase keeps, and so what every step keeps
(spec/10_state.md R23, R24, R29, spec/20_memory.md R59, spec/60_exceptions.md R210). -/

namespace Sys2Proof.Machine

/-! ### The reset state (R34) -/

theorem State.resetWith_inv (font : Font) : (State.resetWith font).inv := by
  refine ⟨Memory.wf_withFont font, ?_, fun k => ?_, rfl, rfl⟩
  · rw [State.resetWith_pc]
    decide
  · rw [State.resetWith_stack, State.reset_stack, Fin.getElem_fin, Vector.getElem_replicate]
    decide

/-- Settles O17; the reset with the default is the one with `Font.default`. -/
theorem resetMeetsInvariant : Obligations.ResetMeetsInvariant :=
  ⟨State.resetWith_default ▸ State.resetWith_inv Font.default, State.resetWith_inv⟩

theorem State.getV_resetWith (font : Font) (r : Reg) : (State.resetWith font).getV r = 0 := by
  simp [State.getV]

theorem State.slot_resetWith (font : Font) (k : Fin 16) : (State.resetWith font).stack[k] = 0 := by
  simp

theorem State.keyPressed_resetWith (font : Font) (k : Nibble) : (State.resetWith font).keyPressed k = false := by
  simp [State.keyPressed]

theorem State.pixel_resetWith (font : Font) (row : Fin 32) (col : Fin 64) :
    (State.resetWith font).fb.pixel row col = false := Framebuffer.pixel_clear row col

/-- Settles O19; the reset with the default is the one with `Font.default`. -/
theorem resetRegisters : Obligations.ResetRegisters := by
  intro font s hs
  obtain ⟨font', rfl⟩ : ∃ font', s = State.resetWith font' := by
    rcases hs with rfl | rfl
    · exact ⟨Font.default, State.resetWith_default.symm⟩
    · exact ⟨font, rfl⟩
  exact ⟨State.getV_resetWith font', rfl, rfl, rfl, State.slot_resetWith font', rfl, rfl,
    State.keyPressed_resetWith font', State.pixel_resetWith font', rfl, rfl, rfl, rfl⟩

/-! ### The ports of the host (R40, R41) -/

@[simp] theorem State.keyPressed_setKey_same (s : State) (k : Nibble) (p : Bool) : (s.setKey k p).keyPressed k = p := by
  rw [State.keyPressed_setKey, if_pos rfl]

/-- Settles O23, from what each port writes and its frame. -/
theorem hostPortsChangeOneThing : Obligations.HostPortsChangeOneThing := fun _ s k =>
  ⟨⟨_, rfl, s.keyPressed_setKey_same k true, s.frame_setKey k true⟩,
    ⟨_, rfl, s.keyPressed_setKey_same k false, s.frame_setKey k false⟩, ⟨_, rfl, rfl, frame_clearDirty s⟩⟩

/-! ### What raises, and what a raise means -/

/-- The instruction `i`, executed from `s`, meets the condition of the cause `c` (R210). -/
def raises (s : State) (i : Instr) (c : FaultCause) : Prop :=
  ((∃ nnn, i = .call nnn) ∧ s.sp.val = 16 ∧ c = .stackOverflow) ∨
    (i = .ret ∧ s.sp.val = 0 ∧ c = .stackUnderflow) ∨
    (∃ x, (i = .skp x ∨ i = .sknp x) ∧ 15 < (s.getV x).toNat ∧ c = .keyIndexRange)

section
variable {s t : State} {i : Instr}

/-- An execute phase raises a fault of which the condition holds, or leaves the latch as it is. -/
theorem exec_raises_or_keeps_latch (h : exec i s = .next t) :
    (∃ c, raises s i c ∧ t = s.raiseInstr c (encode i)) ∨
      (t.fault = s.fault ∧ t.faultPc = s.faultPc ∧ t.faultOp = s.faultOp) := by
  have hf := exec_frame h
  cases i with
  | ret =>
    obtain ⟨hsp, ht⟩ | ⟨hpos, rfl⟩ := exec_ret_cases h
    · exact .inl ⟨_, .inr (.inl ⟨rfl, hsp, rfl⟩), ht⟩
    · exact .inr ⟨rfl, rfl, rfl⟩
  | call nnn =>
    obtain ⟨hsp, ht⟩ | ⟨hlt, rfl⟩ := exec_call_cases h
    · exact .inl ⟨_, .inl ⟨⟨nnn, rfl⟩, hsp, rfl⟩, ht⟩
    · exact .inr ⟨rfl, rfl, rfl⟩
  | skp x =>
    obtain ⟨hx, ht⟩ | ⟨k, -, rfl⟩ := exec_skp_cases h
    · exact .inl ⟨_, .inr (.inr ⟨x, .inl rfl, hx, rfl⟩), ht⟩
    · exact .inr ⟨rfl, rfl, rfl⟩
  | sknp x =>
    obtain ⟨hx, ht⟩ | ⟨k, -, rfl⟩ := exec_sknp_cases h
    · exact .inl ⟨_, .inr (.inr ⟨x, .inr rfl, hx, rfl⟩), ht⟩
    · exact .inr ⟨rfl, rfl, rfl⟩
  | _ =>
    exact .inr ⟨hf.fault_eq (by simp [writes]), hf.faultPc_eq (by simp [writes]), hf.faultOp_eq (by simp [writes])⟩

theorem decodeWord_encode_call (nnn : Addr) : decodeWord (encode (.call nnn)) = .ok (.call nnn) := by
  simp [decodeWord, encode]

theorem decodeWord_encode_skp (x : Reg) : decodeWord (encode (.skp x)) = .ok (.skp x) := by
  simp [decodeWord, decodeGroupE, encode]

theorem decodeWord_encode_sknp (x : Reg) : decodeWord (encode (.sknp x)) = .ok (.sknp x) := by
  simp [decodeWord, decodeGroupE, encode]

/-- A raise in the execute phase leaves the latch telling the truth: nothing its condition speaks of changes (R213). -/
theorem raises.latchInv {c : FaultCause} (h : raises s i c) (hpc : s.pc0.toNat ≤ 0x0FFE) :
    (s.raiseInstr c (encode i)).latchInv := by
  obtain ⟨⟨nnn, rfl⟩, hsp, rfl⟩ | ⟨rfl, hsp, rfl⟩ | ⟨x, hi, hx, rfl⟩ := h
  · exact ⟨rfl, hpc, hsp, nnn, decodeWord_encode_call nnn⟩
  · exact ⟨rfl, hpc, hsp, rfl⟩
  · refine ⟨rfl, hpc, x, hx, ?_⟩
    rcases hi with rfl | rfl
    · exact .inl (decodeWord_encode_skp x)
    · exact .inr (decodeWord_encode_sknp x)

/-! ### What the execute phase keeps -/

theorem zextAddr_toNat (nnn : Addr) : (zextAddr nnn).toNat = nnn.toNat :=
  BitVec.toNat_setWidth_of_le (by decide)

theorem zextByte_toNat (b : Byte) : (zextByte b).toNat = b.toNat :=
  BitVec.toNat_setWidth_of_le (by decide)

/-- The two stores to memory are inside the 4096 bytes; no other instruction touches it (R59). -/
theorem exec_keeps_wf (h : exec i s = .next t) (hm : s.mem.wf = true) : t.mem.wf = true := by
  cases i with
  | ret =>
    obtain ⟨-, rfl⟩ | ⟨-, rfl⟩ := exec_ret_cases h <;> exact hm
  | call nnn =>
    obtain ⟨-, rfl⟩ | ⟨-, rfl⟩ := exec_call_cases h <;> exact hm
  | skp x =>
    obtain ⟨-, rfl⟩ | ⟨k, -, rfl⟩ := exec_skp_cases h <;> exact hm
  | sknp x =>
    obtain ⟨-, rfl⟩ | ⟨k, -, rfl⟩ := exec_sknp_cases h <;> exact hm
  | ldVxK x =>
    obtain ⟨-, rfl⟩ | ⟨k, -, rfl⟩ := exec_ldVxK_cases h <;> exact hm
  | ldBVx x =>
    exact Host.Outcome.next.inj h ▸ State.writeByte_wf _ _ (State.writeByte_wf _ _ (State.writeByte_wf _ _ hm))
  | ldMiVx x => exact Host.Outcome.next.inj h ▸ State.storeRegs_wf x hm
  | ldVxMi x =>
    obtain rfl := Host.Outcome.next.inj h
    obtain ⟨v, hv⟩ := s.loadRegs_eq x
    rwa [hv]
  | _ => exact Host.Outcome.next.inj h ▸ hm

/-- The one address an instruction pushes is the advanced PC (R24, R112). -/
theorem exec_keeps_slots {b : Nat} (h : exec i s = .next t) (hpc : s.pc.toNat ≤ b)
    (hstack : ∀ k : Fin 16, s.stack[k].toNat ≤ b) (k : Fin 16) : t.stack[k].toNat ≤ b := by
  have hf := exec_frame h
  cases i with
  | call nnn =>
    obtain ⟨-, rfl⟩ | ⟨hlt, rfl⟩ := exec_call_cases h
    · exact hstack k
    · show ((s.setSlot _ s.pc).stack[k]).toNat ≤ b
      rw [State.getElem_setSlot]
      split
      · exact hpc
      · exact hstack k
  | _ => exact (hf.slot_eq (k := k) (by simp [writes, latchParts])) ▸ hstack k

/-- A skip goes at most two bytes past the advanced PC (R118). -/
theorem State.skipIf_pc_le {taken : Bool} (hpc : s.pc.toNat ≤ 0x1000) : (s.skipIf taken).pc.toNat ≤ 0x10FE := by
  rw [State.skipIf_pc]
  split <;> bv_omega

/-- No instruction takes PC past 0x10FE: a jump is to 12 bits, an indexed jump to 8 bits more, a return to a slot (R23). -/
theorem exec_pc_le (h : exec i s = .next t) (hpc0 : 2 ≤ s.pc.toNat) (hpc : s.pc.toNat ≤ 0x1000)
    (hstack : ∀ k : Fin 16, s.stack[k].toNat ≤ 0x1000) : t.pc.toNat ≤ 0x10FE := by
  have hf := exec_frame h
  have hback : (s.pc - 2).toNat ≤ 0x10FE := by bv_omega
  have hnnn : ∀ nnn : Addr, (zextAddr nnn).toNat ≤ 0x0FFF := fun nnn => by rw [zextAddr_toNat]; omega
  cases i with
  | ret =>
    obtain ⟨-, rfl⟩ | ⟨hpos, rfl⟩ := exec_ret_cases h
    · exact hback
    · exact (hstack ⟨s.sp.val - 1, by omega⟩).trans (by decide)
  | call nnn =>
    obtain ⟨-, rfl⟩ | ⟨-, rfl⟩ := exec_call_cases h
    · exact hback
    · exact (hnnn nnn).trans (by decide)
  | jp nnn => exact Host.Outcome.next.inj h ▸ (hnnn nnn).trans (by decide)
  | jpV0 nnn =>
    obtain rfl := Host.Outcome.next.inj h
    rw [State.setPc_pc, BitVec.toNat_add, zextAddr_toNat, zextByte_toNat]
    omega
  | skp x =>
    obtain ⟨-, rfl⟩ | ⟨k, -, rfl⟩ := exec_skp_cases h
    · exact hback
    · exact State.skipIf_pc_le hpc
  | sknp x =>
    obtain ⟨-, rfl⟩ | ⟨k, -, rfl⟩ := exec_sknp_cases h
    · exact hback
    · exact State.skipIf_pc_le hpc
  | ldVxK x =>
    obtain ⟨-, rfl⟩ | ⟨k, -, rfl⟩ := exec_ldVxK_cases h
    · exact hback
    · exact hpc.trans (by decide)
  | seVxKk x y | sneVxKk x y | seVxVy x y | sneVxVy x y =>
    exact Host.Outcome.next.inj h ▸ State.skipIf_pc_le hpc
  | _ => exact (hf.pc_eq (by simp [writes])) ▸ hpc.trans (by decide)

/-! ### The step -/

/-- Below the fetch guard both bytes of the word are inside memory (R91). -/
theorem State.pc_le_of_not_pcOverflows (hp : s.pcOverflows = false) : s.pc.toNat ≤ 0x0FFE := by
  have hlt : ¬ 0x0FFF ≤ s.pc.toNat := of_decide_eq_false hp
  omega

/-- Without a fault the latch says that its other fields are 0. -/
theorem State.latchInv_of_running (hl : s.latched = false) : s.latchInv ↔ s.faultPc = 0 ∧ s.faultOp = 0 := by
  rw [State.latchInv, State.not_latched_iff.mp hl]

/-- The timers are no part of the invariant. -/
theorem State.inv.postExecute (h : s.inv) : s.postExecute.inv := by
  cases hl : s.latched with
  | true => rwa [State.postExecute_of_latched hl]
  | false =>
    rw [State.postExecute_of_running hl]
    exact h

/-- An execute phase that starts from the advance of a state that fetched keeps the invariant. -/
theorem State.inv.exec_advance (hs : s.inv) (hl : s.latched = false) (hp : s.pcOverflows = false)
    (h : exec i s.advance = .next t) : t.inv := by
  obtain ⟨hm, -, hstack, hlatch⟩ := hs
  have hfetch : s.pc.toNat ≤ 0x0FFE := State.pc_le_of_not_pcOverflows hp
  have hadv : s.advance.pc.toNat = s.pc.toNat + 2 := by rw [State.advance_pc]; bv_omega
  refine ⟨exec_keeps_wf h hm, exec_pc_le h (by omega) (by omega) hstack, exec_keeps_slots h (by omega) hstack, ?_⟩
  obtain ⟨c, hc, rfl⟩ | ⟨hfault, hfaultPc, hfaultOp⟩ := exec_raises_or_keeps_latch h
  · exact hc.latchInv (by rwa [State.pc0_advance])
  · have ht : t.latched = false := State.not_latched_iff.mpr (hfault.trans (State.not_latched_iff.mp hl))
    rw [State.latchInv_of_running ht, hfaultPc, hfaultOp]
    exact (State.latchInv_of_running hl).mp hlatch

/-- A step over a word of no row keeps the invariant. -/
theorem State.inv.advance (hs : s.inv) (hl : s.latched = false) (hp : s.pcOverflows = false) : s.advance.inv :=
  hs.exec_advance (i := .sys 0) hl hp rfl

/-- The fetch guard raises with PC where its condition says (R91). -/
theorem State.inv.raise_addressOverflow (hs : s.inv) (hp : s.pcOverflows = true) :
    (s.raise .addressOverflow s.pc 0).inv := by
  obtain ⟨hm, hpc, hstack, -⟩ := hs
  exact ⟨hm, hpc, hstack, rfl, rfl, State.pcOverflows_iff.mp hp⟩
end

/-- Settles O16: each of the four things a step can do keeps the invariant. -/
theorem stepKeepsInvariant : Obligations.StepKeepsInvariant := by
  intro s t hs h
  obtain ⟨-, rfl⟩ | ⟨-, hp, rfl⟩ | ⟨hl, hp, i, u, -, hu, rfl⟩ | ⟨hl, hp, e, -, rfl⟩ := step_next_cases h
  · exact hs
  · exact hs.raise_addressOverflow hp
  · exact (hs.exec_advance hl hp hu).postExecute
  · exact (hs.advance hl hp).postExecute

end Sys2Proof.Machine
end

section
/-! PROOF. The result of a step (spec/10_state.md R43, spec/60_exceptions.md R214, R218). -/

namespace Sys2Proof.Machine

section
variable {s t : State}

/-! ### The three results of R43 -/

theorem stepResult_eq (h : step s = .next t) : stepResult s = some (resultOf s.fetchWord t) := by
  rw [stepResult, h]

theorem resultOf_eq_faulted_iff {op : Word} : resultOf op t = .faulted t.fault ↔ t.latched = true := by
  unfold resultOf
  split
  · next hl => simp [hl]
  · next hl => split <;> simp [hl]

theorem resultOf_eq_reported_iff {op op' : Word} :
    resultOf op t = .reported op' ↔ t.latched = false ∧ isUnknownOpcode op = true ∧ op = op' := by
  unfold resultOf
  split
  · next hl => simp [hl]
  · next hl => split <;> simp_all

theorem resultOf_eq_ok_iff {op : Word} : resultOf op t = .ok ↔ t.latched = false ∧ isUnknownOpcode op = false := by
  unfold resultOf
  split
  · next hl => simp [hl]
  · next hl => split <;> simp_all

/-! ### A step that ends without a fault -/

/-- The post-execute phase changes timers only. -/
theorem State.postExecute_latched (s : State) : s.postExecute.latched = s.latched := by
  rw [State.latched, State.latched, s.frame_postExecute.fault_eq (by simp)]

/-- A step that ends without a fault began without one, and fetched. -/
theorem running_of_step_running (h : step s = .next t) (ht : t.latched = false) :
    s.latched = false ∧ s.pc.toNat ≤ 0x0FFE := by
  obtain ⟨hl, rfl⟩ | ⟨-, -, rfl⟩ | ⟨hl, hp, -⟩ | ⟨hl, hp, -⟩ := step_next_cases h
  · exact absurd (hl.symm.trans ht) (by decide)
  · exact absurd ht (by simp [State.latched])
  · exact ⟨hl, State.pc_le_of_not_pcOverflows hp⟩
  · exact ⟨hl, State.pc_le_of_not_pcOverflows hp⟩

/-- A word of which the decoder makes an instruction is an unknown opcode exactly if the instruction is `0nnn` (R76, R97). -/
theorem exists_sys_of_isUnknownOpcode {op : Word} {i : Instr} (hi : decodeWord op = .ok i)
    (h : isUnknownOpcode op = true) : ∃ nnn, i = .sys nnn := by
  unfold isUnknownOpcode at h
  rw [hi] at h
  cases i with
  | sys nnn => exact ⟨nnn, rfl⟩
  | _ => simp at h

/-- The step of an unknown opcode does not raise (R96, R97). -/
theorem step_running_of_isUnknownOpcode (h : step s = .next t) (hl : s.latched = false) (hpc : s.pc.toNat ≤ 0x0FFE)
    (hop : isUnknownOpcode s.fetchWord = true) : t.latched = false := by
  obtain ⟨hl', -⟩ | ⟨-, hp, -⟩ | ⟨-, -, i, u, hi, hu, rfl⟩ | ⟨-, -, e, -, rfl⟩ := step_next_cases h
  · exact absurd (hl'.symm.trans hl) (by decide)
  · exact absurd (State.pcOverflows_iff.mp hp) (by omega)
  · obtain ⟨nnn, rfl⟩ := exists_sys_of_isUnknownOpcode hi hop
    obtain rfl : s.advance = u := Host.Outcome.next.inj hu
    rw [State.postExecute_latched]
    exact hl
  · rw [State.postExecute_latched]
    exact hl
end

/-- Settles O15: each result by its case of `resultOf`; a word is reported only by the step that fetched it. -/
theorem stepResultSaysWhatHappened : Obligations.StepResultSaysWhatHappened := by
  intro s t h
  simp only [stepResult_eq h, Option.some.injEq]
  refine ⟨resultOf_eq_faulted_iff, fun op => resultOf_eq_reported_iff.trans ?_, resultOf_eq_ok_iff⟩
  constructor
  · rintro ⟨ht, hop, rfl⟩
    obtain ⟨hl, hpc⟩ := running_of_step_running h ht
    exact ⟨⟨hl, hpc, rfl⟩, hop⟩
  · rintro ⟨⟨hl, hpc, rfl⟩, hop⟩
    exact ⟨step_running_of_isUnknownOpcode h hl hpc hop, hop, rfl⟩

end Sys2Proof.Machine
end

section
/-! PROOF. What the execute phase of each instruction can read (spec/10_state.md R35): the same operation on two states
has the same effect on both, so two states that agree on what an instruction reads are changed alike. -/

namespace Sys2Proof.Machine

/-- `s` to `t` and `s'` to `t'` is one effect on two states: each part ends equal in both or unchanged in both. -/
def SameEffect (s s' t t' : State) : Prop :=
  ∀ p, t.obs p = t'.obs p ∨ (t.obs p = s.obs p ∧ t'.obs p = s'.obs p)

section
variable {s s' t t' u u' : State} {W : Part → Prop}

/-! ### Effects composed, and effects from frames -/

theorem SameEffect.refl (s s' : State) : SameEffect s s' s s' := fun _ => .inr ⟨rfl, rfl⟩

theorem SameEffect.trans (h : SameEffect s s' t t') (h' : SameEffect t t' u u') : SameEffect s s' u u' := by
  intro p
  obtain he | ⟨hu, hu'⟩ := h' p
  · exact .inl he
  · rw [hu, hu']
    exact h p

/-- Two changes within one frame that end equal on it are the same effect. -/
theorem SameEffect.of_frame (hf : Frame W s t) (hf' : Frame W s' t') (he : ∀ p, W p → t.obs p = t'.obs p) :
    SameEffect s s' t t' := by
  intro p
  by_cases hp : W p
  · exact .inl (he p hp)
  · exact .inr ⟨hf p hp, hf' p hp⟩

theorem SameEffect.of_next (h : (.next u : Host.Outcome State Fault Refusal) = .next t)
    (h' : (.next u' : Host.Outcome State Fault Refusal) = .next t') (he : SameEffect s s' u u') : SameEffect s s' t t' :=
  Host.Outcome.next.inj h ▸ Host.Outcome.next.inj h' ▸ he

theorem SameEffect.of_frame_part {q : Part} (hf : Frame (· = q) s t) (hf' : Frame (· = q) s' t')
    (he : t.obs q = t'.obs q) : SameEffect s s' t t' :=
  .of_frame hf hf' fun _ hp => hp ▸ he

/-! ### Each operation, with equal arguments, has the same effect on two states -/

theorem sameEffect_setV {r : Reg} {b b' : Byte} (h : b = b') : SameEffect s s' (s.setV r b) (s'.setV r b') := by
  subst h
  exact .of_frame_part (s.frame_setV r b) (s'.frame_setV r b) (by simp)

theorem sameEffect_setIndex {w w' : Word} (h : w = w') : SameEffect s s' (s.setIndex w) (s'.setIndex w') :=
  .of_frame_part (s.frame_setIndex w) (s'.frame_setIndex w') (by simp [h])

theorem sameEffect_setPc {w w' : Word} (h : w = w') : SameEffect s s' (s.setPc w) (s'.setPc w') :=
  .of_frame_part (s.frame_setPc w) (s'.frame_setPc w') (by simp [h])

theorem sameEffect_setDt {b b' : Byte} (h : b = b') : SameEffect s s' (s.setDt b) (s'.setDt b') :=
  .of_frame_part (s.frame_setDt b) (s'.frame_setDt b') (by simp [h])

theorem sameEffect_setSt {b b' : Byte} (h : b = b') : SameEffect s s' (s.setSt b) (s'.setSt b') :=
  .of_frame_part (s.frame_setSt b) (s'.frame_setSt b') (by simp [h])

theorem sameEffect_setSp {n n' : Fin 17} (h : n = n') : SameEffect s s' (s.setSp n) (s'.setSp n') :=
  .of_frame_part (s.frame_setSp n) (s'.frame_setSp n') (congrArg Fin.val h)

theorem sameEffect_setSlot {k k' : Fin 16} {a a' : Word} (hk : k = k') (ha : a = a') :
    SameEffect s s' (s.setSlot k a) (s'.setSlot k' a') := by
  subst hk ha
  refine .of_frame_part (s.frame_setSlot k a) (s'.frame_setSlot k a) (State.obs_stack_eq_iff.mpr ?_)
  rw [State.getElem_setSlot, State.getElem_setSlot, if_pos rfl, if_pos rfl]

theorem sameEffect_skipIf {p p' : Bool} (hpc : s.pc = s'.pc) (h : p = p') : SameEffect s s' (s.skipIf p) (s'.skipIf p') :=
  sameEffect_setPc (by rw [hpc, h])

theorem sameEffect_afterDraw (h : s.draws = s'.draws) : SameEffect s s' s.afterDraw s'.afterDraw :=
  .of_frame_part s.frame_afterDraw s'.frame_afterDraw (congrArg (· + 1) h)

theorem sameEffect_writeByte {a a' : Addr} {b b' : Byte} (hs : s.mem.wf = true) (hs' : s'.mem.wf = true) (ha : a = a')
    (hb : b = b') : SameEffect s s' (s.writeByte a b) (s'.writeByte a' b') := by
  subst ha hb
  refine .of_frame_part (s.frame_writeByte a b) (s'.frame_writeByte a b) (State.obs_mem_eq_iff.mpr ?_)
  rw [State.readByte_writeByte_same a b hs, State.readByte_writeByte_same a b hs']

theorem sameEffect_raiseInstr {c : FaultCause} {op : Word} (hpc : s.pc = s'.pc) :
    SameEffect s s' (s.raiseInstr c op) (s'.raiseInstr c op) := by
  refine .of_frame (s.frame_raiseInstr c op) (s'.frame_raiseInstr c op) fun p hp => ?_
  cases p with
  | pc | fault | faultPc | faultOp => simp [State.pc0, hpc]
  | _ => exact absurd hp id

theorem sameEffect_setPicture {fb fb' : Framebuffer} {m m' : Bool} (hm : m = m')
    (h : ∀ row col, fb.pixel row col = fb'.pixel row col ∨
      (fb.pixel row col = s.fb.pixel row col ∧ fb'.pixel row col = s'.fb.pixel row col)) :
    SameEffect s s' (s.setPicture fb m) (s'.setPicture fb' m') := by
  intro p
  cases p with
  | pixel row col => simpa using h row col
  | dirty => cases m <;> subst hm <;> simp
  | _ => exact .inr ⟨rfl, rfl⟩

theorem sameEffect_resultThenFlag {x : Reg} {b b' : Byte} {f f' : Bool} (hb : b = b') (hf : f = f') :
    SameEffect s s' (s.resultThenFlag x b f) (s'.resultThenFlag x b' f') :=
  (sameEffect_setV hb).trans (sameEffect_setV (congrArg flagByte hf))

theorem sameEffect_flagThenResult {x : Reg} {b b' : Byte} {f f' : Bool} (hf : f = f') (hb : b = b') :
    SameEffect s s' (s.flagThenResult x f b) (s'.flagThenResult x f' b') :=
  (sameEffect_setV (congrArg flagByte hf)).trans (sameEffect_setV hb)

/-! ### The operations through I -/

/-- The address through I depends on I alone (R56). -/
theorem State.ea_congr (h : s.index = s'.index) (off : Nat) : s.ea off = s'.ea off := by rw [State.ea, State.ea, h]

theorem sameEffect_storeRegs {x : Reg} (hs : s.mem.wf = true) (hs' : s'.mem.wf = true) (hindex : s.index = s'.index)
    (hv : ∀ r : Reg, r.toNat ≤ x.toNat → s.getV r = s'.getV r) : SameEffect s s' (s.storeRegs x) (s'.storeRegs x) := by
  have hf' := s'.frame_storeRegs x
  simp only [← State.ea_congr hindex] at hf'
  refine .of_frame (s.frame_storeRegs x) hf' ?_
  rintro _ ⟨off, hoff, rfl⟩
  obtain ⟨r, rfl⟩ : ∃ r : Reg, off = r.toNat := ⟨BitVec.ofNat 4 off, by rw [BitVec.toNat_ofNat]; omega⟩
  refine State.obs_mem_eq_iff.mpr ?_
  rw [(State.storeRegs_readByte x hs).1 r hoff, hv r hoff, State.ea_congr hindex,
    (State.storeRegs_readByte x hs').1 r hoff]

theorem sameEffect_loadRegs {x : Reg}
    (hmem : ∀ off ≤ x.toNat, s.readByte (s.ea off) = s'.readByte (s'.ea off)) :
    SameEffect s s' (s.loadRegs x) (s'.loadRegs x) := by
  refine .of_frame (s.frame_loadRegs x) (s'.frame_loadRegs x) ?_
  rintro _ ⟨r, hr, rfl⟩
  refine State.obs_v_eq_iff.mpr ?_
  rw [State.loadRegs_getV, State.loadRegs_getV, if_pos hr, if_pos hr, hmem r.toNat hr]

/-! ### The blit (R172) -/

/-- Two states that agree on the bytes of a sprite and on the pixels it lands on. -/
def AgreeOnSprite (s s' : State) (vx vy : Byte) (n : Nat) : Prop :=
  (∀ r < n, s.readByte (s.ea r) = s'.readByte (s'.ea r)) ∧
    ∀ r b, r < n → b < 8 →
      s.fb.pixel (spriteRow vy r) (spriteCol vx b) = s'.fb.pixel (spriteRow vy r) (spriteCol vx b)

section
variable {vx vy : Byte} {n : Nat} (h : AgreeOnSprite s s' vx vy n)
include h

theorem AgreeOnSprite.spriteLit_eq (row : Fin 32) (col : Fin 64) :
    s.spriteLit vx vy n row col = s'.spriteLit vx vy n row col := by
  rw [Bool.eq_iff_iff, State.spriteLit_iff, State.spriteLit_iff]
  exact exists_congr fun r => exists_congr fun b => and_congr_right fun hr => by rw [h.1 r hr]

theorem AgreeOnSprite.hit_eq (hn : n ≤ 32) : (s.blit vx vy n).hit = (s'.blit vx vy n).hit := by
  rw [Bool.eq_iff_iff, State.blit_hit_iff hn, State.blit_hit_iff hn]
  exact exists_congr fun r => exists_congr fun b => and_congr_right fun hr => and_congr_right fun hb => by
    rw [h.1 r hr, h.2 r b hr hb]

theorem AgreeOnSprite.changed_eq (hn : n ≤ 32) : (s.blit vx vy n).changed = (s'.blit vx vy n).changed := by
  rw [Bool.eq_iff_iff, State.blit_changed_iff hn, State.blit_changed_iff hn]
  exact exists_congr fun r => exists_congr fun b => and_congr_right fun hr => by rw [h.1 r hr]

theorem AgreeOnSprite.pixel_eq_or_kept (hn : n ≤ 32) (row : Fin 32) (col : Fin 64) :
    (s.blit vx vy n).fb.pixel row col = (s'.blit vx vy n).fb.pixel row col ∨
      ((s.blit vx vy n).fb.pixel row col = s.fb.pixel row col ∧
        (s'.blit vx vy n).fb.pixel row col = s'.fb.pixel row col) := by
  rw [State.blit_pixel hn, State.blit_pixel hn, ← h.spriteLit_eq row col]
  cases hlit : s.spriteLit vx vy n row col with
  | false => exact .inr ⟨Bool.xor_false _, Bool.xor_false _⟩
  | true =>
    obtain ⟨r, b, hr, hb, rfl, rfl, -⟩ := State.spriteLit_iff.mp hlit
    exact .inl (by rw [h.2 r b hr hb])
end

/-! ### Keys (R192, R193) -/

/-- The scan of the keys depends on the keys alone (R193). -/
theorem State.lastPressed_congr (h : ∀ k, s.keyPressed k = s'.keyPressed k) : s.lastPressed = s'.lastPressed := by
  simp only [State.lastPressed, h]

/-- A key skip on a condition of the key's flag, or the raise in its place, reads `V[x]`, that key, and PC (R190 to R192). -/
theorem sameEffect_keySkip {x : Reg} {c : FaultCause} {op : Word} (f : Bool → Bool) (hx : s.getV x = s'.getV x)
    (hkey : ∀ k : Nibble, k.toNat = (s.getV x).toNat → s.keyPressed k = s'.keyPressed k) (hpc : s.pc = s'.pc)
    (ht : (15 < (s.getV x).toNat ∧ t = s.raiseInstr c op) ∨
      ∃ k : Nibble, k.toNat = (s.getV x).toNat ∧ t = s.skipIf (f (s.keyPressed k)))
    (ht' : (15 < (s'.getV x).toNat ∧ t' = s'.raiseInstr c op) ∨
      ∃ k : Nibble, k.toNat = (s'.getV x).toNat ∧ t' = s'.skipIf (f (s'.keyPressed k))) : SameEffect s s' t t' := by
  rw [← hx] at ht'
  obtain ⟨hgt, rfl⟩ | ⟨k, hk, rfl⟩ := ht <;> obtain ⟨hgt', rfl⟩ | ⟨k', hk', rfl⟩ := ht'
  · exact sameEffect_raiseInstr hpc
  · omega
  · omega
  · obtain rfl : k = k' := BitVec.eq_of_toNat_eq (hk.trans hk'.symm)
    exact sameEffect_skipIf hpc (congrArg f (hkey k hk))
end

/-! ### The execute phase -/

section
variable {s s' t t' : State}

theorem exec_ret_sameEffect (hr : ∀ p, reads s .ret p → s.obs p = s'.obs p) (h : exec .ret s = .next t)
    (h' : exec .ret s' = .next t') : SameEffect s s' t t' := by
  have hsp : s.sp.val = s'.sp.val := hr .sp (Or.inl rfl)
  have hpc : s.pc = s'.pc := State.obs_pc_eq_iff.mp (hr .pc (Or.inr (Or.inr rfl)))
  obtain ⟨he, rfl⟩ | ⟨hpos, rfl⟩ := exec_ret_cases h <;> obtain ⟨he', rfl⟩ | ⟨hpos', rfl⟩ := exec_ret_cases h'
  · exact sameEffect_raiseInstr hpc
  · omega
  · omega
  · let k : Fin 16 := ⟨s.sp.val - 1, by omega⟩
    have hslot : s.stack[k] = s'.stack[k] :=
      State.obs_stack_eq_iff.mp (hr (.stack k) (Or.inr (Or.inl ⟨k, Nat.sub_add_cancel hpos, rfl⟩)))
    have htarget : s.stack[s.sp.val - 1]'(by omega) = s'.stack[s'.sp.val - 1]'(by omega) := by
      simpa only [k, Fin.getElem_fin, hsp] using hslot
    exact (sameEffect_setSp (Fin.ext (congrArg (· - 1) hsp))).trans (sameEffect_setPc htarget)

theorem exec_call_sameEffect {nnn : Addr} (hr : ∀ p, reads s (.call nnn) p → s.obs p = s'.obs p)
    (h : exec (.call nnn) s = .next t) (h' : exec (.call nnn) s' = .next t') : SameEffect s s' t t' := by
  have hsp : s.sp.val = s'.sp.val := hr .sp (Or.inl rfl)
  have hpc : s.pc = s'.pc := State.obs_pc_eq_iff.mp (hr .pc (Or.inr rfl))
  obtain ⟨he, rfl⟩ | ⟨hlt, rfl⟩ := exec_call_cases h <;> obtain ⟨he', rfl⟩ | ⟨hlt', rfl⟩ := exec_call_cases h'
  · exact sameEffect_raiseInstr hpc
  · omega
  · omega
  · exact ((sameEffect_setSlot (Fin.ext hsp) hpc).trans
      (sameEffect_setSp (Fin.ext (congrArg (· + 1) hsp)))).trans (sameEffect_setPc rfl)

theorem exec_ldVxK_sameEffect {x : Reg} (hr : ∀ p, reads s (.ldVxK x) p → s.obs p = s'.obs p)
    (h : exec (.ldVxK x) s = .next t) (h' : exec (.ldVxK x) s' = .next t') : SameEffect s s' t t' := by
  have hkeys : ∀ k, s.keyPressed k = s'.keyPressed k := fun k => State.obs_key_eq_iff.mp (hr (.key k) (Or.inl ⟨k, rfl⟩))
  have hpc : s.pc = s'.pc := State.obs_pc_eq_iff.mp (hr .pc (Or.inr rfl))
  have hcases' := exec_ldVxK_cases h'
  rw [← State.lastPressed_congr hkeys, ← hpc] at hcases'
  obtain ⟨hn, rfl⟩ | ⟨k, hk, rfl⟩ := exec_ldVxK_cases h <;> obtain ⟨hn', rfl⟩ | ⟨k', hk', rfl⟩ := hcases'
  · exact sameEffect_setPc rfl
  · exact absurd (hn.symm.trans hk') nofun
  · exact absurd (hn'.symm.trans hk) nofun
  · obtain rfl : k = k' := Option.some.inj (hk.symm.trans hk')
    exact sameEffect_setV rfl

theorem exec_drw_sameEffect {x y : Reg} {n : Nibble} (hr : ∀ p, reads s (.drw x y n) p → s.obs p = s'.obs p)
    (h : exec (.drw x y n) s = .next t) (h' : exec (.drw x y n) s' = .next t') : SameEffect s s' t t' := by
  have hx : s.getV x = s'.getV x := State.obs_v_eq_iff.mp (hr (.v x) (Or.inl rfl))
  have hy : s.getV y = s'.getV y := State.obs_v_eq_iff.mp (hr (.v y) (Or.inr (Or.inl rfl)))
  have hindex : s.index = s'.index := State.obs_index_eq_iff.mp (hr .index (Or.inr (Or.inr (Or.inl rfl))))
  have hsprite : AgreeOnSprite s s' (s.getV x) (s.getV y) n.toNat := by
    refine ⟨fun r hrn => ?_, fun r b hrn hb => ?_⟩
    · rw [← State.ea_congr hindex]
      exact State.obs_mem_eq_iff.mp (hr (.mem (s.ea r)) (Or.inr (Or.inr (Or.inr (Or.inl ⟨r, hrn, rfl⟩)))))
    · exact State.obs_pixel_eq_iff.mp (hr _ (Or.inr (Or.inr (Or.inr (Or.inr ⟨r, b, hrn, hb, rfl⟩)))))
  have hn : n.toNat ≤ 32 := by omega
  obtain rfl := Host.Outcome.next.inj h
  obtain rfl := Host.Outcome.next.inj h'
  rw [← hx, ← hy]
  exact (sameEffect_setPicture (hsprite.changed_eq hn) (hsprite.pixel_eq_or_kept hn)).trans
    (sameEffect_setV (congrArg flagByte (hsprite.hit_eq hn)))

theorem exec_ldBVx_sameEffect {x : Reg} (hs : s.mem.wf = true) (hs' : s'.mem.wf = true)
    (hr : ∀ p, reads s (.ldBVx x) p → s.obs p = s'.obs p) (h : exec (.ldBVx x) s = .next t)
    (h' : exec (.ldBVx x) s' = .next t') : SameEffect s s' t t' := by
  have hx : s.getV x = s'.getV x := State.obs_v_eq_iff.mp (hr (.v x) (Or.inl rfl))
  have hindex : s.index = s'.index := State.obs_index_eq_iff.mp (hr .index (Or.inr rfl))
  obtain rfl := Host.Outcome.next.inj h
  obtain rfl := Host.Outcome.next.inj h'
  rw [← hx]
  simp only [← State.ea_congr hindex]
  have hs1 := State.writeByte_wf (s.ea 0) (hundreds (s.getV x)) hs
  have hs1' := State.writeByte_wf (s.ea 0) (hundreds (s.getV x)) hs'
  exact ((sameEffect_writeByte hs hs' rfl rfl).trans (sameEffect_writeByte hs1 hs1' rfl rfl)).trans
    (sameEffect_writeByte (State.writeByte_wf _ _ hs1) (State.writeByte_wf _ _ hs1') rfl rfl)

/-- Two states that agree on what an instruction reads are changed alike by its execute phase (R35). -/
theorem exec_sameEffect {i : Instr} (hs : s.mem.wf = true) (hs' : s'.mem.wf = true)
    (hr : ∀ p, reads s i p → s.obs p = s'.obs p) (h : exec i s = .next t) (h' : exec i s' = .next t') :
    SameEffect s s' t t' := by
  have hv : ∀ r, reads s i (.v r) → s.getV r = s'.getV r := fun r hw => State.obs_v_eq_iff.mp (hr (.v r) hw)
  have hpc : reads s i .pc → s.pc = s'.pc := fun hw => State.obs_pc_eq_iff.mp (hr .pc hw)
  have hindex : reads s i .index → s.index = s'.index := fun hw => State.obs_index_eq_iff.mp (hr .index hw)
  cases i with
  | ret => exact exec_ret_sameEffect hr h h'
  | call nnn => exact exec_call_sameEffect hr h h'
  | drw x y n => exact exec_drw_sameEffect hr h h'
  | ldVxK x => exact exec_ldVxK_sameEffect hr h h'
  | ldBVx x => exact exec_ldBVx_sameEffect hs hs' hr h h'
  | skp x =>
    have hkey : ∀ k : Nibble, k.toNat = (s.getV x).toNat → s.keyPressed k = s'.keyPressed k := fun k hk =>
      State.obs_key_eq_iff.mp (hr (.key k) (Or.inr (Or.inl ⟨k, hk, rfl⟩)))
    exact sameEffect_keySkip id (hv x (Or.inl rfl)) hkey (hpc (Or.inr (Or.inr rfl))) (exec_skp_cases h) (exec_skp_cases h')
  | sknp x =>
    have hkey : ∀ k : Nibble, k.toNat = (s.getV x).toNat → s.keyPressed k = s'.keyPressed k := fun k hk =>
      State.obs_key_eq_iff.mp (hr (.key k) (Or.inr (Or.inl ⟨k, hk, rfl⟩)))
    exact sameEffect_keySkip not (hv x (Or.inl rfl)) hkey (hpc (Or.inr (Or.inr rfl))) (exec_sknp_cases h)
      (exec_sknp_cases h')
  | cls => exact .of_next h h' (sameEffect_setPicture rfl fun _ _ => .inl rfl)
  | sys nnn => exact .of_next h h' (.refl s s')
  | jp nnn => exact .of_next h h' (sameEffect_setPc rfl)
  | jpV0 nnn => exact .of_next h h' (sameEffect_setPc (by rw [hv 0 rfl]))
  | seVxKk x kk | sneVxKk x kk =>
    exact .of_next h h' (sameEffect_skipIf (hpc (Or.inr rfl)) (by rw [hv x (Or.inl rfl)]))
  | seVxVy x y | sneVxVy x y =>
    exact .of_next h h' (sameEffect_skipIf (hpc (Or.inr (Or.inr rfl)))
      (by rw [hv x (Or.inl rfl), hv y (Or.inr (Or.inl rfl))]))
  | ldVxKk x kk => exact .of_next h h' (sameEffect_setV rfl)
  | addVxKk x kk => exact .of_next h h' (sameEffect_setV (by rw [hv x rfl]))
  | ldVxVy x y => exact .of_next h h' (sameEffect_setV (hv y rfl))
  | orVxVy x y | andVxVy x y | xorVxVy x y =>
    exact .of_next h h' (sameEffect_setV (by rw [hv x (Or.inl rfl), hv y (Or.inr rfl)]))
  | addVxVy x y | sub x y | subn x y =>
    have hx := hv x (Or.inl rfl)
    have hy := hv y (Or.inr rfl)
    exact .of_next h h' (sameEffect_resultThenFlag (by rw [hx, hy]) (by rw [hx, hy]))
  | shr x y | shl x y =>
    have hx := hv x rfl
    exact .of_next h h' (sameEffect_flagThenResult (by rw [hx]) (by rw [hx]))
  | rnd x kk =>
    have hdraws : s.draws = s'.draws := hr .draws rfl
    exact .of_next h h' ((sameEffect_afterDraw hdraws).trans (sameEffect_setV (by rw [hdraws])))
  | ldINnn nnn => exact .of_next h h' (sameEffect_setIndex rfl)
  | addIVx x => exact .of_next h h' (sameEffect_setIndex (by rw [hv x (Or.inl rfl), hindex (Or.inr rfl)]))
  | ldFVx x => exact .of_next h h' (sameEffect_setIndex (by rw [hv x rfl]))
  | ldVxDt x => exact .of_next h h' (sameEffect_setV (State.obs_dt_eq_iff.mp (hr .dt rfl)))
  | ldDtVx x => exact .of_next h h' (sameEffect_setDt (hv x rfl))
  | ldStVx x => exact .of_next h h' (sameEffect_setSt (hv x rfl))
  | ldMiVx x =>
    exact .of_next h h' (sameEffect_storeRegs hs hs' (hindex (Or.inl rfl)) fun r hrx => hv r (Or.inr ⟨r, hrx, rfl⟩))
  | ldVxMi x =>
    have hbytes : ∀ off ≤ x.toNat, s.readByte (s.ea off) = s'.readByte (s'.ea off) := fun off hoff => by
      rw [← State.ea_congr (hindex (Or.inl rfl))]
      exact State.obs_mem_eq_iff.mp (hr (.mem (s.ea off)) (Or.inr ⟨off, hoff, rfl⟩))
    exact .of_next h h' (sameEffect_loadRegs hbytes)
end

/-- Settles O51: every operation of the execute phase has the same effect on two states when its arguments agree. -/
theorem nothingReadOutsideTable : Obligations.NothingReadOutsideTable := fun _ _ _ _ _ => exec_sameEffect

end Sys2Proof.Machine
end

section
/-! PROOF. The byte access and the fetch, and what a store puts in memory for the next fetch to see
(spec/20_memory.md R52, R56, R59, R62, spec/43_index_memory.md R153, R154). -/

namespace Sys2Proof.Machine

section
variable {s t : State} {i : Instr}

/-! ### Addresses of the fetch and of the operands -/

/-- An address inside memory is not reduced (R57). -/
theorem State.readByte_ofNat (s : State) {a : Nat} (ha : a < 4096) :
    s.readByte (BitVec.ofNat 12 a) = s.mem.read a := by
  rw [State.readByte, BitVec.toNat_ofNat, Nat.mod_eq_of_lt ha]

/-- The word at a PC the fetch guard lets through is its two bytes of memory (R52, R91). -/
theorem State.fetchWord_eq (hpc : s.pc.toNat ≤ 0x0FFE) :
    s.fetchWord = wordOfBytes (s.mem.read s.pc.toNat) (s.mem.read (s.pc.toNat + 1)) := by
  have hhi : (s.pc.setWidth 12).toNat = s.pc.toNat := by bv_omega
  have hlo : ((s.pc + 1).setWidth 12).toNat = s.pc.toNat + 1 := by bv_omega
  rw [State.fetchWord, State.readByte, State.readByte, hhi, hlo]

/-- Settles O6: neither address of the fetch is reduced. -/
theorem fetchIsBigEndian : Obligations.FetchIsBigEndian := fun s hpc => by
  rw [State.fetchWord_eq hpc, wordOfBytes_toNat]

/-- Settles O36: 4096 divides 65536, so the first reduction changes nothing. -/
theorem effectiveAddressWraps : Obligations.EffectiveAddressWraps := fun s off => by
  rw [Nat.mod_mod_of_dvd _ (by decide), and_self]
  exact s.ea_toNat off

/-! ### What `Fx33` stores (R153) -/

theorem hundreds_toNat (b : Byte) : (hundreds b).toNat = b.toNat / 100 := by
  rw [hundreds, BitVec.toNat_ofNat]
  omega

theorem tens_toNat (b : Byte) : (tens b).toNat = b.toNat / 10 % 10 := by
  rw [tens, BitVec.toNat_ofNat]
  omega

theorem ones_toNat (b : Byte) : (ones b).toNat = b.toNat % 10 := by
  rw [ones, BitVec.toNat_ofNat]
  omega

/-- The three digits of `Fx33` lie at distinct addresses, so each reads back. -/
theorem exec_ldBVx_readByte {x : Reg} (hm : s.mem.wf = true) (h : exec (.ldBVx x) s = .next t) :
    t.readByte (s.ea 0) = hundreds (s.getV x) ∧ t.readByte (s.ea 1) = tens (s.getV x) ∧
      t.readByte (s.ea 2) = ones (s.getV x) := by
  obtain rfl := Host.Outcome.next.inj h
  have hm1 := State.writeByte_wf (s.ea 0) (hundreds (s.getV x)) hm
  have hm2 := State.writeByte_wf (s.ea 1) (tens (s.getV x)) hm1
  have h01 : s.ea 0 ≠ s.ea 1 := fun e => absurd (State.ea_inj (by decide) (by decide) e) (by decide)
  have h02 : s.ea 0 ≠ s.ea 2 := fun e => absurd (State.ea_inj (by decide) (by decide) e) (by decide)
  have h12 : s.ea 1 ≠ s.ea 2 := fun e => absurd (State.ea_inj (by decide) (by decide) e) (by decide)
  refine ⟨?_, ?_, State.readByte_writeByte_same _ _ hm2⟩
  · rw [State.readByte_writeByte_ne _ h02, State.readByte_writeByte_ne _ h01, State.readByte_writeByte_same _ _ hm]
  · rw [State.readByte_writeByte_ne _ h12, State.readByte_writeByte_same _ _ hm1]

/-! ### Memory after the execute phase -/

/-- A byte an instruction stores is what its address reads as afterwards. -/
theorem exec_readByte_of_stores {a : Addr} {b : Byte} (hm : s.mem.wf = true) (h : exec i s = .next t)
    (hb : stores s i a.toNat b) : t.readByte a = b := by
  cases i with
  | ldBVx x =>
    obtain ⟨off, hoff, ha, hdigit⟩ := hb
    obtain rfl := BitVec.eq_of_toNat_eq ha
    obtain ⟨h100, h10, h1⟩ := exec_ldBVx_readByte hm h
    apply BitVec.eq_of_toNat_eq
    obtain rfl | rfl | rfl : off = 0 ∨ off = 1 ∨ off = 2 := by omega
    · rw [h100, hundreds_toNat, hdigit]
      omega
    · rw [h10, tens_toNat, hdigit, Nat.pow_one]
    · rw [h1, ones_toNat, hdigit, Nat.pow_zero, Nat.div_one]
  | ldMiVx x =>
    obtain ⟨r, hrx, ha, rfl⟩ := hb
    obtain rfl := BitVec.eq_of_toNat_eq ha
    obtain rfl := Host.Outcome.next.inj h
    exact (State.storeRegs_readByte x hm).1 r hrx
  | _ => exact hb.elim

/-- Where the table lists a write to memory, some byte is stored (R35). -/
theorem exists_stores_of_writes_mem {a : Addr} (h : writes s i (.mem a)) : ∃ b, stores s i a.toNat b := by
  cases i with
  | ldBVx x =>
    obtain ⟨off, hoff, ha⟩ := h
    obtain rfl := Part.mem.inj ha
    refine ⟨BitVec.ofNat 8 ((s.getV x).toNat / 10 ^ (2 - off) % 10), off, hoff, rfl, ?_⟩
    rw [BitVec.toNat_ofNat]
    omega
  | ldMiVx x =>
    obtain ⟨off, hoff, ha⟩ := h
    obtain rfl := Part.mem.inj ha
    have hr : (BitVec.ofNat 4 off).toNat = off := Nat.mod_eq_of_lt (by omega)
    exact ⟨_, BitVec.ofNat 4 off, hr.symm ▸ hoff, by rw [hr], rfl⟩
  | _ => simp [writes, latchParts] at h

theorem Frame.readByte_eq {W : Part → Prop} (h : Frame W s t) {a : Addr} (ha : ¬ W (.mem a)) :
    t.readByte a = s.readByte a := State.obs_mem_eq_iff.mp (h _ ha)

/-- Where an instruction stores nothing, memory reads as before. -/
theorem exec_readByte_of_not_stores {a : Addr} (h : exec i s = .next t) (hb : ∀ b, ¬ stores s i a.toNat b) :
    t.readByte a = s.readByte a :=
  (exec_frame h).readByte_eq fun hw => (exists_stores_of_writes_mem hw).elim hb

/-- The advance of PC changes no address and no byte of a store. -/
@[simp] theorem stores_advance (s : State) (i : Instr) : stores s.advance i = stores s i := by
  cases i <;> rfl

/-! ### The step that stores -/

/-- A step that executes `i` is its execute phase after the advance, and the post-execute phase (R90). -/
theorem State.executes.step_eq (h : s.executes i) : step s = finish (exec i s.advance) := by
  obtain ⟨hl, hpc, hi⟩ := h
  have hp : s.pcOverflows = false := decide_eq_false (by omega)
  simp [step, hl, hp, hi]

/-- The stores `Fx33` and `Fx55` complete, and neither moves PC nor touches the latch. -/
theorem exec_store_completes (hi : ∃ x, i = .ldBVx x ∨ i = .ldMiVx x) (s : State) :
    ∃ t, exec i s = .next t ∧ t.pc = s.pc ∧ t.latched = s.latched := by
  obtain ⟨x, rfl | rfl⟩ := hi
  · exact ⟨_, rfl, rfl, rfl⟩
  · have hf := s.frame_storeRegs x
    exact ⟨_, rfl, hf.pc_eq (by simp), by rw [State.latched, State.latched, hf.fault_eq (by simp)]⟩

theorem State.postExecute_pc (s : State) : s.postExecute.pc = s.pc := s.frame_postExecute.pc_eq (by simp)

theorem State.postExecute_readByte (s : State) (a : Addr) : s.postExecute.readByte a = s.readByte a :=
  s.frame_postExecute.readByte_eq (by simp)

/-- After a step each byte of memory is the one its instruction stored there, or the old one (R62). -/
theorem read_postExecute_exec_advance {a : Nat} (hm : s.mem.wf = true) (h : exec i s.advance = .next t) (ha : a < 4096) :
    (∀ b, stores s i a b → t.postExecute.mem.read a = b) ∧
      ((∀ b, ¬ stores s i a b) → t.postExecute.mem.read a = s.mem.read a) := by
  have haddr : (BitVec.ofNat 12 a).toNat = a := Nat.mod_eq_of_lt ha
  rw [← State.readByte_ofNat _ ha, State.postExecute_readByte, ← State.readByte_ofNat s ha]
  constructor
  · exact fun b hb => exec_readByte_of_stores (s := s.advance) hm h (by rwa [haddr, stores_advance])
  · exact fun hb => exec_readByte_of_not_stores (s := s.advance) h (by rwa [haddr, stores_advance])
end

/-- Settles O41: the next fetch is at PC + 2 and reads memory as the step left it. -/
theorem storeIsSeenByNextFetch : Obligations.StoreIsSeenByNextFetch := by
  intro s i hm hi hstore hpc
  have hl : s.latched = false := hi.1
  obtain ⟨u, hu, hupc, hulatched⟩ := exec_store_completes hstore s.advance
  have htpc : u.postExecute.pc = s.pc + 2 := u.postExecute_pc.trans hupc
  have htpcNat : u.postExecute.pc.toNat = s.pc.toNat + 2 := by rw [htpc]; bv_omega
  have htlatched : u.postExecute.latched = false := u.postExecute_latched.trans (hulatched.trans hl)
  have hword := State.fetchWord_eq (s := u.postExecute) (by omega)
  rw [htpcNat] at hword
  obtain ⟨hhi, hhiOld⟩ := read_postExecute_exec_advance (a := s.pc.toNat + 2) hm hu (by omega)
  obtain ⟨hlo, hloOld⟩ := read_postExecute_exec_advance (a := s.pc.toNat + 3) hm hu (by omega)
  exact ⟨u.postExecute, _, _, by rw [hi.step_eq, hu, finish_next], htpc, ⟨htlatched, by omega, hword⟩,
    hhi, hhiOld, hlo, hloOld⟩

end Sys2Proof.Machine
end

section
/-! PROOF. The decoder and the encoder are inverse, the decoder is the opcode map, and which words it rejects
(spec/30_encoding.md R70 to R78). -/

namespace Sys2Proof

section
variable {op : Word} {g n : Nibble} {kk : Byte} {i j : Instr} {e : DecodeReject}

/-! ### A word with given digits is assembled from them and its other fields (R71, R72) -/

theorem wordNNN_of_group (hg : opGroup op = g) : wordNNN g (opNnn op) = op := hg ▸ wordNNN_fields op

theorem wordXKK_of_group (hg : opGroup op = g) : wordXKK g (opX op) (opKk op) = op := hg ▸ wordXKK_fields op

theorem wordXKK_of_function (hg : opGroup op = g) (hk : opKk op = kk) : wordXKK g (opX op) kk = op :=
  hk ▸ wordXKK_of_group hg

theorem wordXYN_of_group (hg : opGroup op = g) : wordXYN g (opX op) (opY op) (opN op) = op := hg ▸ wordXYN_fields op

theorem wordXYN_of_function (hg : opGroup op = g) (hn : opN op = n) : wordXYN g (opX op) (opY op) n = op :=
  hn ▸ wordXYN_of_group hg

/-- The sixteen values of a group or a low nibble, the cases of the decoder's dispatch (R73). -/
theorem nibble_cases (g : Nibble) :
    g = 0x0#4 ∨ g = 0x1#4 ∨ g = 0x2#4 ∨ g = 0x3#4 ∨ g = 0x4#4 ∨ g = 0x5#4 ∨ g = 0x6#4 ∨ g = 0x7#4 ∨
      g = 0x8#4 ∨ g = 0x9#4 ∨ g = 0xA#4 ∨ g = 0xB#4 ∨ g = 0xC#4 ∨ g = 0xD#4 ∨ g = 0xE#4 ∨ g = 0xF#4 := by
  revert g
  decide

/-- A `SYS` term is well formed when its word is that of neither `CLS` nor `RET` (R74). -/
theorem wellFormed_sys_iff {nnn : Addr} :
    (Instr.sys nnn).wellFormed = true ↔ wordNNN 0x0#4 nnn ≠ 0x00E0#16 ∧ wordNNN 0x0#4 nnn ≠ 0x00EE#16 := by
  have hinj : ∀ a, wordNNN 0x0#4 nnn = wordNNN 0x0#4 a ↔ nnn = a := fun a =>
    ⟨fun h => by simpa using congrArg opNnn h, fun h => h ▸ rfl⟩
  rw [show 0x00E0#16 = wordNNN 0x0#4 0x0E0 from rfl, show 0x00EE#16 = wordNNN 0x0#4 0x0EE from rfl, Ne, Ne, hinj, hinj]
  simp [Instr.wellFormed]

/-- A row with a condition answers its instruction under the condition. -/
theorem ite_ok_eq_ok_iff {p : Prop} [Decidable p] :
    (if p then .ok j else .error e) = (.ok i : Except DecodeReject Instr) ↔ p ∧ j = i := by
  split_ifs with hp <;> simp [hp]

/-- A row with a condition rejects without it. -/
theorem ite_ok_eq_error_iff {p : Prop} [Decidable p] {e' : DecodeReject} :
    (if p then .ok j else .error e') = (.error e : Except DecodeReject Instr) ↔ e' = e ∧ ¬p := by
  split_ifs with hp <;> simp [hp]

/-- Group 0 but for the words of `CLS` and `RET` (R73, R74). -/
theorem decodeWord_of_group0 (hg : opGroup op = 0x0#4) (hcls : op ≠ 0x00E0#16) (hret : op ≠ 0x00EE#16) :
    decodeWord op = .ok (.sys (opNnn op)) := by
  rw [decodeWord, if_pos hg, decodeGroup0, if_neg hcls, if_neg hret]

/-! ### Decode of encode -/

/-- The word of a well-formed instruction decodes to it: its fixed digits take the decoder to the row, and its fields
read back as the operands. -/
theorem decodeWord_encode (hi : i.wellFormed = true) : decodeWord (encode i) = .ok i := by
  cases i with
  | cls | ret => decide
  | sys nnn =>
    obtain ⟨hcls, hret⟩ := wellFormed_sys_iff.mp hi
    exact (decodeWord_of_group0 (opGroup_wordNNN 0x0#4 nnn) hcls hret).trans (by rw [opNnn_wordNNN])
  | ldVxVy x y | orVxVy x y | andVxVy x y | xorVxVy x y | addVxVy x y | sub x y | shr x y | subn x y | shl x y =>
    simp [decodeWord, decodeGroup8, encode]
  | skp x | sknp x => simp [decodeWord, decodeGroupE, encode]
  | ldVxDt x | ldVxK x | ldDtVx x | ldStVx x | addIVx x | ldFVx x | ldBVx x | ldMiVx x | ldVxMi x =>
    simp [decodeWord, decodeGroupF, encode]
  | _ => simp [decodeWord, encode]

/-- Two bytes are consumed and the rest is returned (R52, R70). -/
theorem decode_bytesOfWord (h : decodeWord op = .ok i) (rest : List Byte) :
    decode (bytesOfWord op ++ rest) = .ok (i, rest) := by
  simp [bytesOfWord, decode, h]

/-! ### Encode of decode, group by group -/

theorem encode_of_decodeGroup0 (hg : opGroup op = 0x0#4) (h : decodeGroup0 op = .ok i) :
    encode i = op ∧ i.wellFormed = true := by
  unfold decodeGroup0 at h
  split_ifs at h with hcls hret
  · exact Except.ok.inj h ▸ ⟨hcls.symm, rfl⟩
  · exact Except.ok.inj h ▸ ⟨hret.symm, rfl⟩
  · have hop : wordNNN 0x0#4 (opNnn op) = op := wordNNN_of_group hg
    exact Except.ok.inj h ▸ ⟨hop, wellFormed_sys_iff.mpr (hop.symm ▸ ⟨hcls, hret⟩)⟩

theorem encode_of_decodeGroup8 (hg : opGroup op = 0x8#4) (h : decodeGroup8 op = .ok i) :
    encode i = op ∧ i.wellFormed = true := by
  unfold decodeGroup8 at h
  split_ifs at h with hn hn hn hn hn hn hn hn hn
  all_goals exact Except.ok.inj h ▸ ⟨wordXYN_of_function hg hn, rfl⟩

theorem encode_of_decodeGroupE (hg : opGroup op = 0xE#4) (h : decodeGroupE op = .ok i) :
    encode i = op ∧ i.wellFormed = true := by
  unfold decodeGroupE at h
  split_ifs at h with hk hk
  all_goals exact Except.ok.inj h ▸ ⟨wordXKK_of_function hg hk, rfl⟩

theorem encode_of_decodeGroupF (hg : opGroup op = 0xF#4) (h : decodeGroupF op = .ok i) :
    encode i = op ∧ i.wellFormed = true := by
  unfold decodeGroupF at h
  split_ifs at h with hk hk hk hk hk hk hk hk hk
  all_goals exact Except.ok.inj h ▸ ⟨wordXKK_of_function hg hk, rfl⟩

/-- What decodes to `i` is the word of `i`: each row the decoder takes fixes the digits the encoder writes. -/
theorem encode_of_decodeWord (h : decodeWord op = .ok i) : encode i = op ∧ i.wellFormed = true := by
  obtain h0 | h1 | h2 | h3 | h4 | h5 | h6 | h7 | h8 | h9 | hA | hB | hC | hD | hE | hF := nibble_cases (opGroup op)
  · exact encode_of_decodeGroup0 h0 (by simpa [decodeWord, h0] using h)
  · obtain rfl : Instr.jp (opNnn op) = i := by simpa [decodeWord, h1] using h
    exact ⟨wordNNN_of_group h1, rfl⟩
  · obtain rfl : Instr.call (opNnn op) = i := by simpa [decodeWord, h2] using h
    exact ⟨wordNNN_of_group h2, rfl⟩
  · obtain rfl : Instr.seVxKk (opX op) (opKk op) = i := by simpa [decodeWord, h3] using h
    exact ⟨wordXKK_of_group h3, rfl⟩
  · obtain rfl : Instr.sneVxKk (opX op) (opKk op) = i := by simpa [decodeWord, h4] using h
    exact ⟨wordXKK_of_group h4, rfl⟩
  · obtain ⟨hn, rfl⟩ : opN op = 0x0#4 ∧ Instr.seVxVy (opX op) (opY op) = i := by
      simpa [decodeWord, h5, ite_ok_eq_ok_iff] using h
    exact ⟨wordXYN_of_function h5 hn, rfl⟩
  · obtain rfl : Instr.ldVxKk (opX op) (opKk op) = i := by simpa [decodeWord, h6] using h
    exact ⟨wordXKK_of_group h6, rfl⟩
  · obtain rfl : Instr.addVxKk (opX op) (opKk op) = i := by simpa [decodeWord, h7] using h
    exact ⟨wordXKK_of_group h7, rfl⟩
  · exact encode_of_decodeGroup8 h8 (by simpa [decodeWord, h8] using h)
  · obtain ⟨hn, rfl⟩ : opN op = 0x0#4 ∧ Instr.sneVxVy (opX op) (opY op) = i := by
      simpa [decodeWord, h9, ite_ok_eq_ok_iff] using h
    exact ⟨wordXYN_of_function h9 hn, rfl⟩
  · obtain rfl : Instr.ldINnn (opNnn op) = i := by simpa [decodeWord, hA] using h
    exact ⟨wordNNN_of_group hA, rfl⟩
  · obtain rfl : Instr.jpV0 (opNnn op) = i := by simpa [decodeWord, hB] using h
    exact ⟨wordNNN_of_group hB, rfl⟩
  · obtain rfl : Instr.rnd (opX op) (opKk op) = i := by simpa [decodeWord, hC] using h
    exact ⟨wordXKK_of_group hC, rfl⟩
  · obtain rfl : Instr.drw (opX op) (opY op) (opN op) = i := by simpa [decodeWord, hD] using h
    exact ⟨wordXYN_of_group hD, rfl⟩
  · exact encode_of_decodeGroupE hE (by simpa [decodeWord, hE] using h)
  · exact encode_of_decodeGroupF hF (by simpa [decodeWord, hF] using h)

/-! ### The rows of the opcode map (R74) -/

/-- The word of an instruction is claimed by its row. -/
theorem row_claims_encode (i : Instr) : i.row.claims (encode i) := by
  cases i with
  | cls => exact Laws.EncodesRow.cls.1
  | ret => exact Laws.EncodesRow.ret.1
  | sys nnn | jp nnn | call nnn | ldINnn nnn | jpV0 nnn => exact wordNNN_mask _ _
  | seVxKk x kk | sneVxKk x kk | ldVxKk x kk | addVxKk x kk | rnd x kk => exact wordXKK_mask_group _ _ _
  | drw x y n => exact wordXYN_mask_group _ _ _ _
  | seVxVy x y | ldVxVy x y | orVxVy x y | andVxVy x y | xorVxVy x y | addVxVy x y | sub x y | shr x y | subn x y
  | shl x y | sneVxVy x y => exact wordXYN_mask_function _ _ _ _
  | _ => exact wordXKK_mask_function _ _ _

/-! A mask keeps the digits the decoder dispatches on: a word a row claims has them from the row's value. -/

theorem opGroup_of_mask {v : Word} (h : op &&& 0xF000#16 = v) : opGroup op = opGroup v := by
  have hmask := wordNNN_mask (opGroup op) (opNnn op)
  rw [wordNNN_fields, h] at hmask
  rw [hmask, opGroup_wordNNN]

theorem opGroup_opN_of_mask {v : Word} (h : op &&& 0xF00F#16 = v) : opGroup op = opGroup v ∧ opN op = opN v := by
  have hmask := wordXYN_mask_function (opGroup op) (opX op) (opY op) (opN op)
  rw [wordXYN_fields, h] at hmask
  exact ⟨by rw [hmask, opGroup_wordXYN], by rw [hmask, opN_wordXYN]⟩

theorem opGroup_opKk_of_mask {v : Word} (h : op &&& 0xF0FF#16 = v) : opGroup op = opGroup v ∧ opKk op = opKk v := by
  have hmask := wordXKK_mask_function (opGroup op) (opX op) (opKk op)
  rw [wordXKK_fields, h] at hmask
  exact ⟨by rw [hmask, opGroup_wordXKK], by rw [hmask, opKk_wordXKK]⟩

/-- A word that a row claims decodes into the row: the row's value fixes the digits the decoder dispatches on. -/
theorem exists_decodeWord_of_claims (h : j.row.claims op)
    (hsys : j.row = (Instr.sys 0).row → op ≠ 0x00E0#16 ∧ op ≠ 0x00EE#16) :
    ∃ i, decodeWord op = .ok i ∧ i.row = j.row := by
  cases j with
  | cls =>
    obtain rfl : op = 0x00E0#16 := op.and_allOnes.symm.trans h
    exact ⟨.cls, rfl, rfl⟩
  | ret =>
    obtain rfl : op = 0x00EE#16 := op.and_allOnes.symm.trans h
    exact ⟨.ret, rfl, rfl⟩
  | sys nnn =>
    obtain ⟨hcls, hret⟩ := hsys rfl
    have hg : opGroup op = opGroup 0x0000#16 := opGroup_of_mask h
    exact ⟨.sys (opNnn op), decodeWord_of_group0 (hg.trans (by decide)) hcls hret, rfl⟩
  | seVxVy x y | sneVxVy x y =>
    obtain ⟨hg, hn⟩ := opGroup_opN_of_mask h
    simp +decide [decodeWord, hg, hn, Instr.row]
  | ldVxVy x y | orVxVy x y | andVxVy x y | xorVxVy x y | addVxVy x y | sub x y | shr x y | subn x y | shl x y =>
    obtain ⟨hg, hn⟩ := opGroup_opN_of_mask h
    simp +decide [decodeWord, decodeGroup8, hg, hn, Instr.row]
  | skp x | sknp x =>
    obtain ⟨hg, hk⟩ := opGroup_opKk_of_mask h
    simp +decide [decodeWord, decodeGroupE, hg, hk, Instr.row]
  | ldVxDt x | ldVxK x | ldDtVx x | ldStVx x | addIVx x | ldFVx x | ldBVx x | ldMiVx x | ldVxMi x =>
    obtain ⟨hg, hk⟩ := opGroup_opKk_of_mask h
    simp +decide [decodeWord, decodeGroupF, hg, hk, Instr.row]
  | _ =>
    have hg := opGroup_of_mask h
    simp +decide [decodeWord, hg, Instr.row]

/-! ### The words without an instruction (R76) -/

/-- The words R76 lists, but for `SYS`. -/
def matchesNoRow (op : Word) : Prop :=
  (opGroup op = 0x5 ∧ opN op ≠ 0) ∨
  (opGroup op = 0x8 ∧ 8 ≤ (opN op).toNat ∧ opN op ≠ 0xE) ∨
  (opGroup op = 0x9 ∧ opN op ≠ 0) ∨
  (opGroup op = 0xE ∧ opKk op ≠ 0x9E ∧ opKk op ≠ 0xA1) ∨
  (opGroup op = 0xF ∧ opKk op ∉ [0x07, 0x0A, 0x15, 0x18, 0x1E, 0x29, 0x33, 0x55, 0x65])

theorem decodeGroup0_ne_error : decodeGroup0 op ≠ .error e := by
  unfold decodeGroup0
  split_ifs <;> exact nofun

theorem decodeGroup8_eq_error_iff :
    decodeGroup8 op = .error e ↔ .unknown op = e ∧ 8 ≤ (opN op).toNat ∧ opN op ≠ 0xE := by
  obtain h | h | h | h | h | h | h | h | h | h | h | h | h | h | h | h := nibble_cases (opN op)
  all_goals simp [decodeGroup8, h]

theorem decodeGroupE_eq_error_iff :
    decodeGroupE op = .error e ↔ .unknown op = e ∧ opKk op ≠ 0x9E ∧ opKk op ≠ 0xA1 := by
  unfold decodeGroupE
  split_ifs <;> simp [*]

theorem decodeGroupF_eq_error_iff :
    decodeGroupF op = .error e ↔
      .unknown op = e ∧ opKk op ∉ [0x07, 0x0A, 0x15, 0x18, 0x1E, 0x29, 0x33, 0x55, 0x65] := by
  unfold decodeGroupF
  split_ifs <;> simp [*]

/-- The decoder rejects exactly the listed words, each by name. -/
theorem decodeWord_eq_error_iff : decodeWord op = .error e ↔ .unknown op = e ∧ matchesNoRow op := by
  unfold matchesNoRow
  obtain h | h | h | h | h | h | h | h | h | h | h | h | h | h | h | h := nibble_cases (opGroup op)
  all_goals simp [decodeWord, h, ite_ok_eq_error_iff, decodeGroup0_ne_error, decodeGroup8_eq_error_iff,
    decodeGroupE_eq_error_iff, decodeGroupF_eq_error_iff]

/-- An unknown opcode is a word the decoder rejects or a word of `SYS` (R76, R97). -/
theorem isUnknownOpcode_iff :
    isUnknownOpcode op = true ↔ (∃ e, decodeWord op = .error e) ∨ ∃ nnn, decodeWord op = .ok (.sys nnn) := by
  unfold isUnknownOpcode
  split
  · next e he => simp [he]
  · next nnn hi => simp [hi]
  · next i hsys hi => simpa [hi] using hsys

/-- The words of `SYS` are those of group 0 but the words of `CLS` and `RET` (R74). -/
theorem exists_decodeWord_eq_sys_iff :
    (∃ nnn, decodeWord op = .ok (.sys nnn)) ↔ opGroup op = 0x0#4 ∧ op ≠ 0x00E0#16 ∧ op ≠ 0x00EE#16 := by
  constructor
  · rintro ⟨nnn, h⟩
    obtain ⟨rfl, hwf⟩ := encode_of_decodeWord h
    exact ⟨opGroup_wordNNN 0x0#4 nnn, wellFormed_sys_iff.mp hwf⟩
  · rintro ⟨hg, hcls, hret⟩
    exact ⟨opNnn op, decodeWord_of_group0 hg hcls hret⟩

end

/-- Settles O1, from the decode of an assembled word; its two bytes are assembled to the word again. -/
theorem decodeOfEncode : Obligations.DecodeOfEncode := fun _ hi =>
  ⟨decodeWord_encode hi, decode_bytesOfWord (decodeWord_encode hi)⟩

/-- Settles O2, from the digits each row of the decoder fixes. -/
theorem encodeOfDecode : Obligations.EncodeOfDecode := fun _ _ => encode_of_decodeWord

/-- Settles O3: what decodes is the word of the instruction, which its row claims; a row's word decodes into the row; and
the decoder answers one instruction, so two rows that claim a word are one. -/
theorem decodeIsOpcodeMap : Obligations.DecodeIsOpcodeMap := by
  intro op
  refine ⟨fun i h => ?_, fun j => exists_decodeWord_of_claims, fun j k hj hk hjs hks => ?_⟩
  · obtain ⟨rfl, -⟩ := encode_of_decodeWord h
    exact row_claims_encode i
  · obtain ⟨i, hi, hij⟩ := exists_decodeWord_of_claims hj (absurd · hjs)
    obtain ⟨i', hi', hik⟩ := exists_decodeWord_of_claims hk (absurd · hks)
    obtain rfl : i = i' := Except.ok.inj (hi.symm.trans hi')
    exact hij.symm.trans hik

/-- Settles O4, from the words each group rejects. -/
theorem unknownWordsAreThoseListed : Obligations.UnknownWordsAreThoseListed := by
  intro op
  have hname : ∀ e, decodeWord op = .error e → e = .unknown op := fun e h => (decodeWord_eq_error_iff.mp h).1.symm
  have hunknown : (∃ e, decodeWord op = .error e) ↔ decodeWord op = .error (.unknown op) :=
    ⟨fun ⟨e, h⟩ => hname e h ▸ h, fun h => ⟨_, h⟩⟩
  exact ⟨hname, decodeWord_eq_error_iff.trans (and_iff_right rfl),
    isUnknownOpcode_iff.trans (or_congr hunknown exists_decodeWord_eq_sys_iff)⟩

/-- Settles O5, by running the decoder on the words. -/
theorem wordsWrittenOutDecode : Obligations.WordsWrittenOutDecode := by
  unfold Obligations.WordsWrittenOutDecode
  decide

end Sys2Proof
end

section
/-! PROOF. Every instruction and every step answers a next state (spec/40_step_cycle.md R95, R100). -/

namespace Sys2Proof.Machine

/-- Each path of each instruction's meaning is a next state: only the five with a condition have two (R110, R112, R190,
R191, R193). -/
theorem exec_answers (i : Instr) (s : State) : ∃ t, exec i s = .next t := by
  cases i with
  | ret | call nnn | skp x | sknp x | ldVxK x =>
    simp only [exec, execRet, execCall, execSkp, execSknp, execLdVxK]
    split <;> exact ⟨_, rfl⟩
  | _ => exact ⟨_, rfl⟩

/-- A step answers whether the latch is set, the fetch guard raises, or a word is executed, known or not. -/
theorem step_answers (s : State) : ∃ t, step s = .next t := by
  unfold step
  split
  · exact ⟨_, rfl⟩
  split
  · exact ⟨_, rfl⟩
  split
  · next i _ =>
    obtain ⟨u, hu⟩ := exec_answers i s.advance
    exact ⟨_, by rw [hu, finish_next]⟩
  · exact ⟨_, rfl⟩

/-- Settles O14, from the execute phase of each instruction. -/
theorem everyStepAnswers : Obligations.EveryStepAnswers := ⟨exec_answers, step_answers⟩

end Sys2Proof.Machine
end

section
/-! PROOF. The step cycle: what the fetch guard raises, what runs between the advance and the post-execute phase, and when
the timers tick (spec/40_step_cycle.md R90 to R99). -/

namespace Sys2Proof.Machine

section
variable {s t u : State} {i : Instr} {op : Word}

/-! ### The post-execute phase (R99) -/

/-- Subtraction of naturals has the floor of 0 that R99 asks for. -/
theorem timerTick_toNat (b : Byte) : (timerTick b).toNat = b.toNat - 1 := by
  unfold timerTick
  split
  · next h => simp [h]
  · next h => bv_omega

/-- From `s` to `t` both timers went one down, to a floor of 0, and nothing else changed. -/
def OnlyTicks (s t : State) : Prop :=
  t.dt.toNat = s.dt.toNat - 1 ∧ t.st.toNat = s.st.toNat - 1 ∧ Frame (fun p => p = .dt ∨ p = .st) s t

theorem State.onlyTicks_tick (s : State) : OnlyTicks s s.tick := ⟨timerTick_toNat _, timerTick_toNat _, s.frame_tick⟩

theorem State.onlyTicks_postExecute (h : s.latched = false) : OnlyTicks s s.postExecute := by
  rw [State.postExecute_of_running h]
  exact s.onlyTicks_tick

/-- An execute phase that raises leaves both timers alone: it writes the latch and PC only (R213). -/
theorem exec_raise_keeps_timers (h : exec i s = .next u) (hs : s.latched = false) (hu : u.latched = true) :
    u.dt = s.dt ∧ u.st = s.st := by
  obtain ⟨c, -, rfl⟩ | ⟨hfault, -, -⟩ := exec_raises_or_keeps_latch h
  · exact ⟨rfl, rfl⟩
  · exact absurd (hfault.trans (State.not_latched_iff.mp hs)) (State.latched_iff.mp hu)

/-! ### The fetch guard (R91) -/

theorem step_of_pcOverflows (hl : s.latched = false) (hpc : 0x0FFF ≤ s.pc.toNat) :
    step s = .next (s.raise .addressOverflow s.pc 0) := by
  simp [step, hl, State.pcOverflows_iff.mpr hpc]

/-- A raise at PC itself has no advance to undo, so it changes the latch alone (R213). -/
theorem State.frame_raise_at_pc (s : State) (c : FaultCause) (op : Word) :
    Frame (fun p => p = .fault ∨ p = .faultPc ∨ p = .faultOp) s (s.raise c s.pc op) := by
  intro p hp
  cases p with
  | fault | faultPc | faultOp => simp at hp
  | _ => rfl

/-! ### The step that executes a word -/

/-- Two bytes that decode to `i` are the word of `i`, big-endian (R52, R70). -/
theorem decodeWord_of_decode {hi lo : Byte} {rest : List Byte} (h : decode [hi, lo] = .ok (i, rest)) :
    decodeWord (wordOfBytes hi lo) = .ok i := by
  cases hw : decodeWord (wordOfBytes hi lo) with
  | error e => simp [decode, hw] at h
  | ok j =>
    obtain ⟨rfl, -⟩ : j = i ∧ [] = rest := by simpa [decode, hw] using h
    rfl

theorem State.executes_of_decode (hl : s.latched = false) (hpc : s.pc.toNat ≤ 0x0FFE) {rest : List Byte}
    (h : decode [s.mem.read s.pc.toNat, s.mem.read (s.pc.toNat + 1)] = .ok (i, rest)) : s.executes i :=
  ⟨hl, hpc, State.fetchWord_eq hpc ▸ decodeWord_of_decode h⟩

theorem State.executes.step_next (h : s.executes i) (hu : exec i s.advance = .next u) :
    step s = .next u.postExecute := by
  rw [h.step_eq, hu, finish_next]

/-- An unknown opcode of either kind is a step of the advance and the tick alone (R96, R97). -/
theorem step_of_isUnknownOpcode (h : s.fetches op) (hop : isUnknownOpcode op = true) :
    step s = .next s.advance.tick := by
  obtain ⟨hl, hpc, rfl⟩ := h
  have hadvance : s.advance.postExecute = s.advance.tick := State.postExecute_of_running hl
  obtain ⟨e, he⟩ | ⟨nnn, hi⟩ := isUnknownOpcode_iff.mp hop
  · have hp : s.pcOverflows = false := decide_eq_false (by omega)
    simp [step, hl, hp, he, execUnknown, State.reportUnknown, hadvance]
  · rw [← hadvance]
    exact State.executes.step_next ⟨hl, hpc, hi⟩ rfl

/-! ### The end of a run (R101) -/

/-- The timers are no part of what the next step executes. -/
theorem State.executes.tick (h : s.executes i) : s.tick.executes i := h

/-- A jump to its own address undoes the advance, so that only the tick is left (R111). -/
theorem State.executes.step_jp_self {nnn : Addr} (h : s.executes (.jp nnn)) (hpc : zextAddr nnn = s.pc) :
    step s = .next s.tick := by
  have hback : s.advance.setPc (zextAddr nnn) = s := by
    rw [hpc]
    rfl
  have hstep : step s = .next (s.advance.setPc (zextAddr nnn)).postExecute := h.step_next rfl
  rw [hstep, hback, State.postExecute_of_running h.1]
end

/-- Settles O8: the execute phase of an unknown opcode writes nothing, so the step is the advance and the tick. -/
theorem unknownOpcodeIsSteppedOver : Obligations.UnknownOpcodeIsSteppedOver := by
  refine ⟨fun _ _ => rfl, fun s op hs hop => ?_⟩
  have hstep := step_of_isUnknownOpcode hs hop
  obtain ⟨hl, -, rfl⟩ := hs
  obtain ⟨hdt, hst, hframe⟩ := s.advance.onlyTicks_tick
  exact ⟨_, hstep, rfl, hdt, hst, State.not_latched_iff.mp hl,
    (s.frame_advance.widen (.inl rfl)).trans (hframe.mono fun _ => .inr),
    (stepResult_eq hstep).trans (congrArg some (resultOf_eq_reported_iff.mpr ⟨hl, hop, rfl⟩))⟩

/-- Settles O9: each of the four things a step can do either raises and leaves the timers alone, or ends with the tick. -/
theorem timersTickOncePerCompletedStep : Obligations.TimersTickOncePerCompletedStep := by
  intro s t h
  obtain ⟨hl, rfl⟩ | ⟨-, -, rfl⟩ | ⟨hl, -, i, u, hi, hu, rfl⟩ | ⟨hl, -, e, he, rfl⟩ := step_next_cases h
  · exact ⟨fun _ => ⟨rfl, rfl⟩, fun ht => absurd (hl.symm.trans ht) (by decide)⟩
  · exact ⟨fun _ => ⟨rfl, rfl⟩, fun ht => absurd ht (by simp [State.latched])⟩
  · rw [State.postExecute_latched]
    refine ⟨fun hraised => ?_, fun hran => ⟨u, .inl ⟨i, hi, hu⟩, State.onlyTicks_postExecute hran⟩⟩
    rw [State.postExecute_of_latched hraised]
    exact exec_raise_keeps_timers (s := s.advance) hu hl hraised
  · obtain ⟨rfl, -⟩ := decodeWord_eq_error_iff.mp he
    rw [State.postExecute_latched]
    have hadvance : s.advance.latched = false := hl
    exact ⟨fun hraised => absurd (hadvance.symm.trans hraised) (by decide),
      fun hran => ⟨s.advance, .inr ⟨he, rfl⟩, State.onlyTicks_postExecute hran⟩⟩

/-- Settles O55: the step is the tick, and the timers are no part of where the run stands. -/
theorem endedRunStaysEnded : Obligations.EndedRunStaysEnded := fun s ⟨nnn, hjp, hpc⟩ =>
  ⟨s.tick, hjp.step_jp_self hpc, ⟨nnn, hjp.tick, hpc⟩, s.frame_tick⟩

/-- Settles O7: the two bytes at PC are the fetched word, so the state executes `i`. -/
theorem stepRunsDecodedInstruction : Obligations.StepRunsDecodedInstruction := fun s _ hl hpc h =>
  have hi := State.executes_of_decode hl hpc h
  ⟨hi.step_eq, rfl, s.frame_advance, fun _ => hi.step_next⟩

/-- Settles O10: the step is the raise at PC, so only the latch changes. -/
theorem fetchGuardRaises : Obligations.FetchGuardRaises := fun s hl hpc =>
  have hstep := step_of_pcOverflows hl hpc
  ⟨_, hstep, rfl, rfl, rfl, s.frame_raise_at_pc _ _, stepResult_eq hstep⟩

end Sys2Proof.Machine
end

section
/-! PROOF. Control transfer: what a return, a call, a jump and a skip do to PC, SP and the slots, and that a return
undoes a call (spec/41_control_flow.md R110 to R118). -/

namespace Sys2Proof.Machine

section
variable {s t u : State} {i : Instr} {nnn : Addr}

/-! ### The two outcomes of a return and of a call -/

theorem exec_ret_of_pos (h : 0 < s.sp.val) :
    exec .ret s = .next ((s.setSp ⟨s.sp.val - 1, by omega⟩).setPc (s.stack[s.sp.val - 1]'(by omega))) := by
  rw [exec, execRet, State.pop?_of_pos h]

theorem exec_ret_of_empty (h : s.sp.val = 0) :
    exec .ret s = .next (s.raiseInstr .stackUnderflow (encode .ret)) := by
  rw [exec, execRet, State.pop?_eq_none.mpr h]

theorem exec_call_of_lt (h : s.sp.val < 16) :
    exec (.call nnn) s =
      .next (((s.setSlot ⟨s.sp.val, h⟩ s.pc).setSp ⟨s.sp.val + 1, by omega⟩).setPc (zextAddr nnn)) := by
  rw [exec, execCall, State.push?_of_lt _ h]

theorem exec_call_of_full (h : s.sp.val = 16) :
    exec (.call nnn) s = .next (s.raiseInstr .stackOverflow (encode (.call nnn))) := by
  rw [exec, execCall, State.push?_eq_none.mpr h]

theorem State.getElem_setSlot_same (s : State) (k : Fin 16) (a : Word) : (s.setSlot k a).stack[k] = a := by
  rw [State.getElem_setSlot, if_pos rfl]

/-! ### The step of a call and the step of a return -/

/-- A step whose execute phase raises nothing ends with the tick (R99). -/
theorem State.executes.step_completes (hi : s.executes i) (hu : exec i s.advance = .next u) (hf : u.fault = s.fault) :
    step s = .next u.tick := by
  have hl : u.latched = false := State.not_latched_iff.mpr (hf.trans (State.not_latched_iff.mp hi.1))
  rw [hi.step_next hu, State.postExecute_of_running hl]

/-- A call with room pushes the address of the instruction after it (R112). -/
theorem State.executes.step_call_pushes (hi : s.executes (.call nnn)) (hroom : s.sp.val < 16) (h : step s = .next t) :
    t.sp.val = s.sp.val + 1 ∧ t.stack[s.sp.val] = s.pc + 2 := by
  have hstep := hi.step_completes (exec_call_of_lt (s := s.advance) hroom) rfl
  obtain rfl := Host.Outcome.next.inj (h.symm.trans hstep)
  exact ⟨rfl, s.advance.getElem_setSlot_same ⟨s.sp.val, hroom⟩ (s.pc + 2)⟩

/-- A return from depth `k + 1` goes to the address in slot `k` and leaves SP at `k` (R110). -/
theorem State.executes.step_ret_pops (hi : s.executes .ret) {k : Nat} (hsp : s.sp.val = k + 1) :
    ∃ t, step s = .next t ∧ t.pc = s.stack[k]'(by omega) ∧ t.sp.val = k := by
  have hpos : 0 < s.sp.val := by omega
  obtain rfl : k = s.sp.val - 1 := by omega
  exact ⟨_, hi.step_completes (exec_ret_of_pos (s := s.advance) hpos) rfl, rfl, rfl⟩

/-! ### The value of PC after an indexed jump and after a skip -/

/-- The 16-bit sum of `Bnnn` never wraps (R113). -/
theorem zextAddr_add_zextByte_toNat (nnn : Addr) (b : Byte) :
    (zextAddr nnn + zextByte b).toNat = nnn.toNat + b.toNat := by
  rw [BitVec.toNat_add, zextAddr_toNat, zextByte_toNat]
  omega

theorem State.skipIf_beq_pc (s : State) (a b : Byte) :
    (s.skipIf (a == b)).pc = if a = b then s.pc + 2 else s.pc := by
  simp only [State.skipIf_pc, beq_iff_eq]

theorem State.skipIf_bne_pc (s : State) (a b : Byte) :
    (s.skipIf (a != b)).pc = if a = b then s.pc else s.pc + 2 := by
  simp only [State.skipIf_pc, bne_iff_ne, ite_not]
end

/-- Settles O29: the slot the call wrote is the one the return reads, and it holds the address after the call. -/
theorem callThenReturnRoundTrip : Obligations.CallThenReturnRoundTrip := by
  intro s t u nnn hcall hroom ht hret hsp hslot
  obtain ⟨htsp, htslot⟩ := hcall.step_call_pushes hroom ht
  obtain ⟨w, hw, hwpc, hwsp⟩ := hret.step_ret_pops (hsp ▸ htsp)
  exact ⟨w, hw, hwpc.trans (hslot.trans htslot), Fin.ext hwsp⟩

/-- Settles O26: a pop writes SP and PC, a raise PC and the latch. -/
theorem returnPops : Obligations.ReturnPops := fun s =>
  ⟨fun hpos => ⟨_, exec_ret_of_pos hpos, rfl, rfl,
      ((s.frame_setSp _).widen (.inl rfl)).trans ((State.frame_setPc _ _).widen (.inr rfl))⟩,
    fun hempty => ⟨_, exec_ret_of_empty hempty, rfl, rfl, rfl, rfl, s.frame_raiseInstr _ _⟩⟩

/-- Settles O27: the sum of a 12-bit address and a byte is at most 0xFFF + 0xFF. -/
theorem jumpsSetPc : Obligations.JumpsSetPc := fun s nnn =>
  have hsum := zextAddr_add_zextByte_toNat nnn (s.getV 0)
  have hbound : (zextAddr nnn + zextByte (s.getV 0)).toNat ≤ 0x10FE := by omega
  ⟨⟨_, rfl, zextAddr_toNat nnn, s.frame_setPc _⟩, ⟨_, rfl, hsum, hbound, s.frame_setPc _⟩⟩

/-- Settles O28: a push writes the slot SP names and SP, the jump PC, and a raise PC and the latch. -/
theorem callPushes : Obligations.CallPushes := fun s nnn =>
  ⟨fun hroom => ⟨_, exec_call_of_lt hroom, s.getElem_setSlot_same ⟨s.sp.val, hroom⟩ s.pc, rfl, zextAddr_toNat nnn,
      (((s.frame_setSlot _ _).widen (.inr (.inr rfl))).trans ((State.frame_setSp _ _).widen (.inl rfl))).trans
        ((State.frame_setPc _ _).widen (.inr (.inl rfl)))⟩,
    fun hfull => ⟨_, exec_call_of_full hfull, rfl, rfl, rfl, rfl, s.frame_raiseInstr _ _⟩⟩

/-- Settles O30: each is one conditional skip, on an equality or on its negation. -/
theorem registerSkips : Obligations.RegisterSkips := fun s _ _ _ =>
  ⟨⟨_, rfl, s.skipIf_beq_pc _ _, s.frame_skipIf _⟩, ⟨_, rfl, s.skipIf_bne_pc _ _, s.frame_skipIf _⟩,
    ⟨_, rfl, s.skipIf_beq_pc _ _, s.frame_skipIf _⟩, ⟨_, rfl, s.skipIf_bne_pc _ _, s.frame_skipIf _⟩⟩

end Sys2Proof.Machine
end

section
/-! PROOF. Register load and ALU instructions: the value each leaves in `V[x]` and the flag it leaves in VF
(spec/42_load_alu.md R130 to R143). -/

namespace Sys2Proof.Machine

/-! ### What the two orders of writes leave (R142) -/

theorem State.getV_resultThenFlag_same (s : State) {x : Reg} (hx : x ≠ VF) (b : Byte) (f : Bool) :
    (s.resultThenFlag x b f).getV x = b := by
  rw [State.getV_resultThenFlag, if_neg hx, if_pos rfl]

theorem State.getV_flagThenResult_same (s : State) (x : Reg) (f : Bool) (b : Byte) :
    (s.flagThenResult x f b).getV x = b := State.getV_setV_same _ x b

/-! ### The flags as numbers (R136 to R140) -/

theorem flagByte_toNat (f : Bool) : (flagByte f).toNat = f.toNat := by
  cases f
  · rfl
  · rfl

theorem State.getV_VF_resultThenFlag_toNat (s : State) (x : Reg) (b : Byte) (f : Bool) :
    ((s.resultThenFlag x b f).getV VF).toNat = f.toNat := by
  rw [State.getV_VF_resultThenFlag, flagByte_toNat]

theorem State.getV_VF_flagThenResult_toNat (s : State) {x : Reg} (hx : x ≠ VF) (f : Bool) (b : Byte) :
    ((s.flagThenResult x f b).getV VF).toNat = f.toNat := by
  rw [State.getV_VF_flagThenResult s hx, flagByte_toNat]

theorem carryOut_toNat (a b : Byte) : (carryOut a b).toNat = if 255 < a.toNat + b.toNat then 1 else 0 :=
  Bool.cond_decide _ _ _

theorem noBorrow_toNat (a b : Byte) : (noBorrow a b).toNat = if b.toNat ≤ a.toNat then 1 else 0 :=
  Bool.cond_decide _ _ _

theorem lowBit_toNat (a : Byte) : (lowBit a).toNat = a.toNat % 2 := by
  rw [lowBit, BitVec.getLsbD, Nat.toNat_testBit, pow_zero, Nat.div_one]

theorem highBit_toNat (a : Byte) : (highBit a).toNat = a.toNat / 128 := by
  rw [highBit, BitVec.getLsbD, Nat.toNat_testBit]
  omega

/-! ### The results as numbers (R136 to R140) -/

/-- A difference of bytes wraps to the least residue of the integer difference. -/
theorem byteSub_toNat (a b : Byte) : ((a - b).toNat : Int) = (a.toNat - b.toNat : Int) % 256 := by
  rw [BitVec.toNat_sub]
  omega

theorem byteShr_toNat (a : Byte) : (a >>> 1).toNat = a.toNat / 2 := by
  rw [BitVec.toNat_ushiftRight, Nat.shiftRight_one]

theorem byteShl_toNat (a : Byte) : (a <<< 1).toNat = a.toNat * 2 % 256 := by
  rw [BitVec.toNat_shiftLeft, Nat.shiftLeft_eq, pow_one]

/-- The effect `8xy5` and `8xy7` share, with the minuend `a` and the subtrahend `b` (R137, R139). -/
theorem State.subtraction_effect (s : State) {t : State} (x : Reg) (a b : Byte)
    (ht : t = s.resultThenFlag x (a - b) (noBorrow a b)) :
    (x ≠ VF → ((t.getV x).toNat : Int) = (a.toNat - b.toNat : Int) % 256) ∧
      (t.getV VF).toNat = (if b.toNat ≤ a.toNat then 1 else 0) ∧ Frame (fun p => p = .v x ∨ p = .v VF) s t := by
  subst ht
  refine ⟨fun hx => ?_, ?_, s.frame_resultThenFlag x _ _⟩
  · rw [s.getV_resultThenFlag_same hx, byteSub_toNat]
  · rw [s.getV_VF_resultThenFlag_toNat, noBorrow_toNat]

/-- Settles O33: each is a result and then a flag, so the flag is the last write to VF whatever `x` is. -/
theorem addSubtractAndFlag : Obligations.AddSubtractAndFlag := fun s x y =>
  ⟨⟨_, rfl, fun hx => by rw [s.getV_resultThenFlag_same hx, BitVec.toNat_add],
      (s.getV_VF_resultThenFlag_toNat x _ _).trans (carryOut_toNat _ _), s.frame_resultThenFlag x _ _⟩,
    ⟨_, rfl, s.subtraction_effect x _ _ rfl⟩, ⟨_, rfl, s.subtraction_effect x _ _ rfl⟩⟩

/-- Settles O34: each is a flag and then a result, so the result is the last write to `V[x]` whatever `x` is. -/
theorem shiftsByOne : Obligations.ShiftsByOne := fun s x _ =>
  ⟨⟨_, rfl, by rw [s.getV_flagThenResult_same, byteShr_toNat],
      fun hx => (s.getV_VF_flagThenResult_toNat hx _ _).trans (lowBit_toNat _), s.frame_flagThenResult x _ _⟩,
    ⟨_, rfl, by rw [s.getV_flagThenResult_same, byteShl_toNat],
      fun hx => (s.getV_VF_flagThenResult_toNat hx _ _).trans (highBit_toNat _), s.frame_flagThenResult x _ _⟩⟩

/-- Settles O31: each is one write to `V[x]`. -/
theorem loadsAndAddImmediate : Obligations.LoadsAndAddImmediate := fun s x _ kk =>
  ⟨⟨_, rfl, s.getV_setV_same x kk, s.frame_setV x _⟩,
    ⟨_, rfl, by rw [State.getV_setV_same, BitVec.toNat_add], s.frame_setV x _⟩,
    ⟨_, rfl, s.getV_setV_same x _, s.frame_setV x _⟩⟩

/-- Settles O32: each is one write to `V[x]`, of a value whose bits are those of the operands, combined. -/
theorem logicIsBitwise : Obligations.LogicIsBitwise := fun s x _ =>
  ⟨⟨_, rfl, s.frame_setV x _, fun _ _ => by rw [State.getV_setV_same, BitVec.getLsbD_or]⟩,
    ⟨_, rfl, s.frame_setV x _, fun _ _ => by rw [State.getV_setV_same, BitVec.getLsbD_and]⟩,
    ⟨_, rfl, s.frame_setV x _, fun _ _ => by rw [State.getV_setV_same, BitVec.getLsbD_xor]⟩⟩

/-- Settles O35: the counter goes up and `V[x]` is written, with the byte drawn left as it is, a free value. -/
theorem randomIsMasked : Obligations.RandomIsMasked := fun s x _ =>
  ⟨_, rfl, rfl, (s.frame_afterDraw.widen (.inr rfl)).trans ((State.frame_setV _ x _).widen (.inl rfl)),
    fun _ _ => by rw [State.getV_setV_same, BitVec.getLsbD_and]⟩

end Sys2Proof.Machine
end

section
/-! PROOF. Index register, stores and loads through I: what each leaves in I, in memory and in the registers
(spec/43_index_memory.md R150 to R156). -/

namespace Sys2Proof.Machine

/-! ### The values of I (R151, R152) -/

theorem add_zextByte_toNat (w : Word) (b : Byte) : (w + zextByte b).toNat = (w.toNat + b.toNat) % 65536 := by
  rw [BitVec.toNat_add, zextByte_toNat]

/-- Five times a byte needs no reduction to 16 bits. -/
theorem glyphAddr_toNat (b : Byte) : (glyphAddr b).toNat = b.toNat * 5 := by
  have hfits : b.toNat * 5 < 65536 := by omega
  rw [glyphAddr, BitVec.toNat_mul, zextByte_toNat]
  exact Nat.mod_eq_of_lt hfits

/-! ### The three bytes of `Fx33` (R153) -/

/-- The offsets below 3 of the table's row (R35), one by one. -/
theorem eq_mem_of_writes_ldBVx {s : State} {x : Reg} {p : Part} (h : writes s (.ldBVx x) p) :
    p = .mem (s.ea 0) ∨ p = .mem (s.ea 1) ∨ p = .mem (s.ea 2) := by
  obtain ⟨off, hoff, hp⟩ := h
  obtain rfl | rfl | rfl : off = 0 ∨ off = 1 ∨ off = 2 := by omega
  · exact .inl hp
  · exact .inr (.inl hp)
  · exact .inr (.inr hp)

/-- Settles O37: each is one write to I. -/
theorem indexWrites : Obligations.IndexWrites := fun s _ nnn =>
  ⟨⟨_, rfl, zextAddr_toNat nnn, s.frame_setIndex _⟩, ⟨_, rfl, add_zextByte_toNat s.index _, s.frame_setIndex _⟩,
    ⟨_, rfl, glyphAddr_toNat _, s.frame_setIndex _⟩⟩

/-- Settles O38: the three digits lie at distinct addresses, so each reads back, and the table lists those three alone. -/
theorem decimalDigitsStored : Obligations.DecimalDigitsStored := by
  intro s x hm
  obtain ⟨t, ht⟩ := exec_answers (.ldBVx x) s
  obtain ⟨h100, h10, h1⟩ := exec_ldBVx_readByte hm ht
  exact ⟨t, ht, h100 ▸ hundreds_toNat _, h10 ▸ tens_toNat _, h1 ▸ ones_toNat _,
    (exec_frame ht).mono fun _ => eq_mem_of_writes_ldBVx⟩

/-- Settles O39: at most 16 consecutive addresses are distinct modulo 4096, so each register reads back. -/
theorem registersStored : Obligations.RegistersStored := fun s x hm =>
  ⟨_, rfl, (State.storeRegs_readByte x hm).1, s.frame_storeRegs x⟩

/-- Settles O40: each register up to `x` is written once, with the byte of its own offset. -/
theorem registersLoaded : Obligations.RegistersLoaded := fun s x =>
  ⟨_, rfl, fun r hr => (s.loadRegs_getV x r).trans (if_pos hr), s.frame_loadRegs x⟩

end Sys2Proof.Machine
end

section
/-! PROOF. Display: the geometry of a sprite, what a clear and a draw leave in the picture, in VF and in `DIRTY`, and
what every step keeps of the picture (spec/44_display.md R170 to R174). -/

namespace Sys2Proof.Machine

section
variable {W : Part → Prop} {s t u : State} {i : Instr} {x y : Reg} {n : Nibble}

/-! ### The geometry of a sprite (R170) -/

theorem spriteRow_val (vy : Byte) (r : Nat) : (spriteRow vy r).val = (vy.toNat + r) % 32 := Fin.val_ofNat 32 _

theorem spriteCol_val (vx : Byte) (b : Nat) : (spriteCol vx b).val = (vx.toNat + b) % 64 := Fin.val_ofNat 64 _

/-- A sprite byte has a pixel of 1 exactly if it is not 0. -/
theorem exists_spriteBit_iff {byte : Byte} : (∃ b, b < 8 ∧ spriteBit byte b = true) ↔ byte ≠ 0 := by
  constructor
  · rintro ⟨b, -, hbit⟩ rfl
    simp [spriteBit] at hbit
  · intro hne
    by_contra hnone
    refine hne (BitVec.eq_of_getLsbD_eq fun k hk => ?_)
    have hoff : spriteBit byte (7 - k) ≠ true := fun hbit => hnone ⟨7 - k, by omega, hbit⟩
    have hk' : 7 - (7 - k) = k := by omega
    simpa [spriteBit, hk'] using hoff

/-- The pixel `(row, col)` is the one that sprite pixel `(r, b)` of a `Dxyn` executed from `s` lands on, in numbers. -/
def State.spriteTarget (s : State) (x y : Reg) (n : Nibble) (r b : Nat) (row : Fin 32) (col : Fin 64) : Prop :=
  r < n.toNat ∧ b < 8 ∧ row.val = ((s.getV y).toNat + r) % 32 ∧ col.val = ((s.getV x).toNat + b) % 64

theorem State.spriteTarget_iff {r b : Nat} {row : Fin 32} {col : Fin 64} : s.spriteTarget x y n r b row col ↔
    r < n.toNat ∧ b < 8 ∧ row = spriteRow (s.getV y) r ∧ col = spriteCol (s.getV x) b := by
  rw [State.spriteTarget, Fin.ext_iff, Fin.ext_iff, spriteRow_val, spriteCol_val]

/-- Each target is the target of one sprite pixel. -/
theorem State.spriteTarget_inj {r b r' b' : Nat} {row : Fin 32} {col : Fin 64} (h : s.spriteTarget x y n r b row col)
    (h' : s.spriteTarget x y n r' b' row col) : r = r' ∧ b = b' := by
  obtain ⟨hr, hb, rfl, rfl⟩ := State.spriteTarget_iff.mp h
  obtain ⟨hr', hb', hrow, hcol⟩ := State.spriteTarget_iff.mp h'
  exact ⟨spriteRow_inj (by omega) (by omega) hrow, spriteCol_inj hb hb' hcol⟩

/-- What lands on a target is its own sprite pixel. -/
theorem State.spriteLit_of_target {r b : Nat} {row : Fin 32} {col : Fin 64} (h : s.spriteTarget x y n r b row col) :
    s.spriteLit (s.getV x) (s.getV y) n.toNat row col = spriteBit (s.readByte (s.ea r)) b := by
  obtain ⟨hr, hb, hrow, hcol⟩ := State.spriteTarget_iff.mp h
  rw [Bool.eq_iff_iff, State.spriteLit_iff]
  constructor
  · rintro ⟨r', b', hr', hb', hrow', hcol', hbit⟩
    obtain ⟨rfl, rfl⟩ := State.spriteTarget_inj h (State.spriteTarget_iff.mpr ⟨hr', hb', hrow', hcol'⟩)
    exact hbit
  · exact fun hbit => ⟨r, b, hr, hb, hrow, hcol, hbit⟩

/-! ### What a draw leaves (R172, R173) -/

theorem flagByte_eq_one_iff {f : Bool} : flagByte f = 1 ↔ f = true := by
  cases f <;> decide

theorem exec_drw_pixel (h : exec (.drw x y n) s = .next t) (row : Fin 32) (col : Fin 64) :
    t.fb.pixel row col = (s.fb.pixel row col ^^ s.spriteLit (s.getV x) (s.getV y) n.toNat row col) :=
  Host.Outcome.next.inj h ▸ State.blit_pixel (by omega)

/-- VF reports the collision of a sprite pixel of 1 with a lit pixel. -/
theorem exec_drw_VF_iff (h : exec (.drw x y n) s = .next t) : t.getV VF = 1 ↔
    ∃ r b row col, s.spriteTarget x y n r b row col ∧ spriteBit (s.readByte (s.ea r)) b = true ∧
      s.fb.pixel row col = true := by
  obtain rfl := Host.Outcome.next.inj h
  rw [State.getV_setFlag_VF, flagByte_eq_one_iff, State.blit_hit_iff (by omega)]
  simp only [State.spriteTarget_iff]
  constructor
  · rintro ⟨r, b, hr, hb, hbit, hlit⟩
    exact ⟨r, b, _, _, ⟨hr, hb, rfl, rfl⟩, hbit, hlit⟩
  · rintro ⟨r, b, _, _, ⟨hr, hb, rfl, rfl⟩, hbit, hlit⟩
    exact ⟨r, b, hr, hb, hbit, hlit⟩

theorem exec_drw_dirty_iff (h : exec (.drw x y n) s = .next t) :
    t.dirty = true ↔ s.dirty = true ∨ ∃ r, r < n.toNat ∧ s.readByte (s.ea r) ≠ 0 := by
  obtain rfl := Host.Outcome.next.inj h
  rw [State.setFlag_dirty, State.setPicture_dirty, Bool.or_eq_true, State.blit_changed_iff (by omega)]
  simp only [← exists_spriteBit_iff, exists_and_left]

/-- A sprite changes the picture exactly if one of its bytes is not 0: no pixel is XORed twice. -/
theorem exec_drw_fb_ne_iff (h : exec (.drw x y n) s = .next t) :
    t.fb ≠ s.fb ↔ ∃ r, r < n.toNat ∧ s.readByte (s.ea r) ≠ 0 := by
  constructor
  · intro hne
    by_contra hblank
    refine hne (Framebuffer.eq_of_pixel fun row col => ?_)
    have hoff : s.spriteLit (s.getV x) (s.getV y) n.toNat row col = false := Bool.eq_false_of_not_eq_true fun hlit => by
      obtain ⟨r, b, hr, hb, -, -, hbit⟩ := State.spriteLit_iff.mp hlit
      exact hblank ⟨r, hr, exists_spriteBit_iff.mp ⟨b, hb, hbit⟩⟩
    rw [exec_drw_pixel h, hoff, Bool.xor_false]
  · rintro ⟨r, hr, hbyte⟩ heq
    obtain ⟨b, hb, hbit⟩ := exists_spriteBit_iff.mpr hbyte
    have hpix := exec_drw_pixel h (spriteRow (s.getV y) r) (spriteCol (s.getV x) b)
    rw [State.spriteLit_of_target (State.spriteTarget_iff.mpr ⟨hr, hb, rfl, rfl⟩), hbit, heq] at hpix
    simp at hpix

/-- Two draws in a row restore the picture. The second collides exactly if a sprite pixel of 1 lands on a pixel that was
unlit BEFORE the first: where it was lit, the first draw has put it out (R172). -/
theorem exec_drw_twice (hx : x ≠ VF) (hy : y ≠ VF) (ht : exec (.drw x y n) s = .next t)
    (hu : exec (.drw x y n) t = .next u) : u.fb = s.fb ∧ (u.getV VF = 1 ↔
      ∃ r b row col, s.spriteTarget x y n r b row col ∧ spriteBit (s.readByte (s.ea r)) b = true ∧
        s.fb.pixel row col = false) := by
  have hvx : t.getV x = s.getV x := (exec_drw_frame ht).getV_eq (by simpa [writes] using hx)
  have hvy : t.getV y = s.getV y := (exec_drw_frame ht).getV_eq (by simpa [writes] using hy)
  have hbyte : ∀ r, t.readByte (t.ea r) = s.readByte (s.ea r) := fun r => Host.Outcome.next.inj ht ▸ rfl
  have hlit : ∀ row col, t.spriteLit (t.getV x) (t.getV y) n.toNat row col =
      s.spriteLit (s.getV x) (s.getV y) n.toNat row col := fun row col => by
    simp only [State.spriteLit, hvx, hvy, hbyte]
  refine ⟨Framebuffer.eq_of_pixel fun row col => ?_, ?_⟩
  · rw [exec_drw_pixel hu, exec_drw_pixel ht, hlit, Bool.xor_assoc, Bool.xor_self, Bool.xor_false]
  · rw [exec_drw_VF_iff hu]
    refine exists₄_congr fun r b row col => ?_
    rw [State.spriteTarget, hvx, hvy, hbyte]
    refine and_congr_right fun htarget => and_congr_right fun hbit => ?_
    rw [exec_drw_pixel ht, State.spriteLit_of_target htarget, hbit, Bool.xor_true, Bool.not_eq_true']

/-- Every pixel 1. -/
def Framebuffer.allLit : Framebuffer := Vector.replicate 32 (Vector.replicate 64 true)

@[simp] theorem Framebuffer.pixel_allLit (row : Fin 32) (col : Fin 64) : Framebuffer.allLit.pixel row col = true := by
  simp [Framebuffer.pixel, Framebuffer.allLit]

/-! ### What a step does to the picture (R174) -/

theorem Frame.fb_eq (h : Frame W s t) (hp : ∀ row col, ¬ W (.pixel row col)) : t.fb = s.fb :=
  Framebuffer.eq_of_pixel fun row col => State.obs_pixel_eq_iff.mp (h _ (hp row col))

theorem Frame.dirty_eq (h : Frame W s t) (hd : ¬ W .dirty) : t.dirty = s.dirty := State.obs_dirty_eq_iff.mp (h _ hd)

theorem State.postExecute_fb (s : State) : s.postExecute.fb = s.fb := s.frame_postExecute.fb_eq (by simp)

theorem State.postExecute_dirty (s : State) : s.postExecute.dirty = s.dirty := s.frame_postExecute.dirty_eq (by simp)

theorem exec_cls_dirty (h : exec .cls s = .next t) : t.dirty = true :=
  Host.Outcome.next.inj h ▸ Bool.or_true s.dirty

/-- A clear sets `DIRTY`, a draw does so if it changes the picture, and no other instruction touches either. -/
theorem exec_picture_cases (h : exec i s = .next t) :
    (i = .cls ∧ t.dirty = true) ∨
      ((∃ x y n, i = .drw x y n) ∧ (t.dirty = true ↔ s.dirty = true ∨ t.fb ≠ s.fb)) ∨
      (t.fb = s.fb ∧ t.dirty = s.dirty) := by
  have hf := exec_frame h
  cases i with
  | cls => exact .inl ⟨rfl, exec_cls_dirty h⟩
  | drw x y n => exact .inr (.inl ⟨⟨x, y, n, rfl⟩, by rw [exec_drw_dirty_iff h, exec_drw_fb_ne_iff h]⟩)
  | _ => exact .inr (.inr ⟨hf.fb_eq (by simp [writes, latchParts]), hf.dirty_eq (by simp [writes, latchParts])⟩)

/-- The same of a step: what surrounds the execute phase leaves the picture and `DIRTY` alone. -/
theorem step_picture_cases (h : step s = .next t) :
    (s.executes .cls ∧ t.dirty = true) ∨
      ((∃ x y n, s.executes (.drw x y n)) ∧ (t.dirty = true ↔ s.dirty = true ∨ t.fb ≠ s.fb)) ∨
      (t.fb = s.fb ∧ t.dirty = s.dirty) := by
  obtain ⟨-, rfl⟩ | ⟨-, -, rfl⟩ | ⟨hl, hp, i, u, hi, hu, rfl⟩ | ⟨-, -, e, -, rfl⟩ := step_next_cases h
  · exact .inr (.inr ⟨rfl, rfl⟩)
  · exact .inr (.inr ⟨rfl, rfl⟩)
  · have hexec : s.executes i := ⟨hl, State.pc_le_of_not_pcOverflows hp, hi⟩
    rw [State.postExecute_fb, State.postExecute_dirty]
    obtain ⟨rfl, hd⟩ | ⟨⟨x, y, n, rfl⟩, hd⟩ | hkept := exec_picture_cases hu
    · exact .inl ⟨hexec, hd⟩
    · exact .inr (.inl ⟨⟨x, y, n, hexec⟩, hd⟩)
    · exact .inr (.inr hkept)
  · exact .inr (.inr ⟨State.postExecute_fb _, State.postExecute_dirty _⟩)

theorem State.executes.step_cls_dirty (hi : s.executes .cls) (h : step s = .next t) : t.dirty = true := by
  have hstep := hi.step_next (u := s.advance.setPicture Framebuffer.clear true) rfl
  obtain rfl := Host.Outcome.next.inj (h.symm.trans hstep)
  rw [State.postExecute_dirty]
  exact exec_cls_dirty (s := s.advance) rfl

theorem step_keeps_dirty (h : step s = .next t) (hs : s.dirty = true) : t.dirty = true := by
  obtain ⟨-, hd⟩ | ⟨-, hd⟩ | ⟨-, hd⟩ := step_picture_cases h
  · exact hd
  · exact hd.mpr (.inl hs)
  · exact hd.trans hs

theorem step_fb_eq_of_not_dirty (h : step s = .next t) (ht : t.dirty = false) : t.fb = s.fb := by
  obtain ⟨-, hd⟩ | ⟨-, hd⟩ | ⟨hfb, -⟩ := step_picture_cases h
  · exact absurd (hd.symm.trans ht) (by decide)
  · by_contra hne
    exact absurd ((hd.mpr (.inr hne)).symm.trans ht) (by decide)
  · exact hfb
end

/-- Settles O43: a draw's pixels, flag and `DIRTY`, each in the terms of the targets. -/
theorem drawSprite : Obligations.DrawSprite := by
  intro s x y n target
  obtain ⟨t, ht⟩ := exec_answers (.drw x y n) s
  obtain ⟨f, hf⟩ := exec_drw_flag ht
  refine ⟨t, ht, fun r b row col h => ?_, fun _ _ _ _ _ _ => State.spriteTarget_inj, hf ▸ flagByte_eq_zero_or_one f,
    exec_drw_VF_iff ht, exec_drw_dirty_iff ht, (exec_drw_frame ht).mono ?_⟩
  · rw [exec_drw_pixel ht, State.spriteLit_of_target h, spriteBit]
  · rintro p (hVF | hdirty | ⟨r, b, hr, hb, hp⟩)
    · exact .inl hVF
    · exact .inr (.inl hdirty)
    · exact .inr (.inr ⟨r, b, _, _, State.spriteTarget_iff.mpr ⟨hr, hb, rfl, rfl⟩, hp⟩)

/-- Refutes O44: on a picture that is lit all over, the first draw puts the sprite's pixels out with a collision, and
the second lights them again without one, so VF is 0 although the sprite, the first font byte 0xF0, is not blank. -/
theorem not_drawTwiceErases : ¬ Obligations.DrawTwiceErases := by
  intro h
  obtain ⟨t, u, ht, hu, -, hVF⟩ :=
    h (State.reset.setPicture Framebuffer.allLit true) 0 0 1 (by decide) (by decide)
  have hset : u.getV VF = 1 := hVF.mpr ⟨0, by decide, by decide⟩
  obtain ⟨r, b, row, col, -, -, hunlit⟩ := (exec_drw_twice (by decide) (by decide) ht hu).2.mp hset
  simp at hunlit

/-- Settles O45: what a step leaves in `DIRTY`, case by case, and the clear and the draw as the two events. -/
theorem dirtyTellsMutation : Obligations.DirtyTellsMutation := by
  intro s t h
  refine ⟨step_keeps_dirty h, step_fb_eq_of_not_dirty h, fun hs => ⟨fun ht => ?_, ?_⟩⟩
  · obtain ⟨hcls, -⟩ | ⟨hdrw, hd⟩ | ⟨-, hd⟩ := step_picture_cases h
    · exact .inl hcls
    · exact .inr ⟨hdrw, (hd.mp ht).resolve_left (by simp [hs])⟩
    · exact absurd (ht.symm.trans (hd.trans hs)) (by decide)
  · rintro (hcls | ⟨-, hne⟩)
    · exact hcls.step_cls_dirty h
    · by_contra hd
      exact hne (step_fb_eq_of_not_dirty h (Bool.eq_false_of_not_eq_true hd))

/-- Settles O42: the clear replaces the picture whatever it was, and the table lists no register. -/
theorem clearScreen : Obligations.ClearScreen := fun _ =>
  ⟨_, rfl, Framebuffer.pixel_clear, exec_cls_dirty rfl, exec_cls_frame rfl⟩

/-- Settles O56: the definitions are the remainders and the bit of R170. -/
theorem spriteGeometry : Obligations.SpriteGeometry := fun vx vy _ r b =>
  ⟨spriteRow_val vy r, spriteCol_val vx b, rfl⟩

end Sys2Proof.Machine
end

section
/-! PROOF. Keyboard and timers: the key skips, the wait for a key, and the timers from the step that sets one to the
last step of its count (spec/45_keys_timers.md R190 to R197). -/

namespace Sys2Proof.Machine

section
variable {s t u : State} {x : Reg} {i : Instr} {p : Part} {k : Nat}

/-! ### The two outcomes of a key skip (R190, R191, R192) -/

theorem exec_skp_of_key {k : Nibble} (hk : k.toNat = (s.getV x).toNat) :
    exec (.skp x) s = .next (s.skipIf (s.keyPressed k)) := by
  rw [exec, execSkp, keyIndex?_eq_some.mpr hk]

theorem exec_skp_of_gt (hx : 15 < (s.getV x).toNat) :
    exec (.skp x) s = .next (s.raiseInstr .keyIndexRange (encode (.skp x))) := by
  rw [exec, execSkp, keyIndex?_eq_none.mpr hx]

theorem exec_sknp_of_key {k : Nibble} (hk : k.toNat = (s.getV x).toNat) :
    exec (.sknp x) s = .next (s.skipIf (!s.keyPressed k)) := by
  rw [exec, execSknp, keyIndex?_eq_some.mpr hk]

theorem exec_sknp_of_gt (hx : 15 < (s.getV x).toNat) :
    exec (.sknp x) s = .next (s.raiseInstr .keyIndexRange (encode (.sknp x))) := by
  rw [exec, execSknp, keyIndex?_eq_none.mpr hx]

/-- A skip on a negated condition. -/
theorem State.skipIf_not_pc (s : State) (c : Bool) : (s.skipIf !c).pc = if c then s.pc else s.pc + 2 := by
  cases c <;> rfl

/-! ### The two outcomes of the wait for a key (R193) -/

theorem exec_ldVxK_of_some (hk : s.lastPressed = some k) :
    exec (.ldVxK x) s = .next (s.setV x (BitVec.ofNat 8 k)) := by
  rw [exec, execLdVxK, hk]

theorem exec_ldVxK_of_none (hk : s.lastPressed = none) : exec (.ldVxK x) s = .next (s.setPc (s.pc - 2)) := by
  rw [exec, execLdVxK, hk]

/-- The scan answers a pressed key that no pressed key is above. -/
theorem State.lastPressed_of_highest {k : Nibble} (hk : s.keyPressed k = true)
    (hmax : ∀ j, s.keyPressed j = true → j.toNat ≤ k.toNat) : s.lastPressed = some k.toNat := by
  cases hm : s.lastPressed with
  | none => exact absurd (hk.symm.trans (State.lastPressed_none hm k)) (by decide)
  | some m =>
    obtain ⟨hlt, hpressed, habove⟩ := State.lastPressed_some hm
    have hle : m ≤ k.toNat := by simpa [Nat.mod_eq_of_lt hlt] using hmax _ hpressed
    exact congrArg some (Nat.le_antisymm hle (habove k hk))

theorem State.lastPressed_of_no_key (h : ∀ k, s.keyPressed k = false) : s.lastPressed = none := by
  cases hm : s.lastPressed with
  | none => rfl
  | some m =>
    obtain ⟨-, hpressed, -⟩ := State.lastPressed_some hm
    exact absurd (hpressed.symm.trans (h _)) (by decide)

/-! ### The step that transfers a timer (R194, R195, R196) -/

theorem State.executes.step_ldDtVx (h : s.executes (.ldDtVx x)) : step s = .next (s.advance.setDt (s.getV x)).tick :=
  h.step_completes rfl rfl

theorem State.executes.step_ldStVx (h : s.executes (.ldStVx x)) : step s = .next (s.advance.setSt (s.getV x)).tick :=
  h.step_completes rfl rfl

theorem State.executes.step_ldVxDt (h : s.executes (.ldVxDt x)) : step s = .next (s.advance.setV x s.dt).tick :=
  h.step_completes rfl rfl

/-! ### The count of a timer that no step sets (R197) -/

theorem eq_ldDtVx_of_writes_dt (h : writes s i .dt) : ∃ x, i = .ldDtVx x := by
  cases i with
  | ldDtVx x => exact ⟨x, rfl⟩
  | _ => simp [writes, latchParts] at h

theorem eq_ldStVx_of_writes_st (h : writes s i .st) : ∃ x, i = .ldStVx x := by
  cases i with
  | ldStVx x => exact ⟨x, rfl⟩
  | _ => simp [writes, latchParts] at h

/-- Both timers count in the post-execute phase of a step that raised nothing (R99). -/
theorem State.obs_timer_postExecute (hp : p = .dt ∨ p = .st) (hl : s.latched = false) :
    s.postExecute.obs p = s.obs p - 1 := by
  obtain ⟨hdt, hst, -⟩ := State.onlyTicks_postExecute hl
  rcases hp with rfl | rfl
  · exact hdt
  · exact hst

/-- The advance leaves both timers alone (R93). -/
theorem State.obs_timer_advance (hp : p = .dt ∨ p = .st) : s.advance.obs p = s.obs p :=
  s.frame_advance p (by rcases hp with rfl | rfl <;> simp)

/-- A completed step whose instruction does not set a timer leaves it one lower, to a floor of 0 (R99). -/
theorem step_obs_timer (hp : p = .dt ∨ p = .st) (h : step s = .next t) (ht : t.latched = false)
    (hi : ∀ i, decodeWord s.fetchWord = .ok i → ¬ writes s.advance i p) : t.obs p = s.obs p - 1 := by
  obtain ⟨hl, rfl⟩ | ⟨-, -, rfl⟩ | ⟨-, -, i, u, hdec, hu, rfl⟩ | ⟨-, -, e, -, rfl⟩ := step_next_cases h
  · exact absurd (hl.symm.trans ht) (by decide)
  · exact absurd ht (by simp [State.latched])
  · rw [State.postExecute_latched] at ht
    rw [State.obs_timer_postExecute hp ht, exec_frame hu p (hi i hdec), State.obs_timer_advance hp]
  · rw [State.postExecute_latched] at ht
    rw [State.obs_timer_postExecute hp ht, State.obs_timer_advance hp]

/-- Over `k` completed steps, none of which sets it, a timer goes `k` down, to a floor of 0. -/
theorem completedSteps.obs_timer {bad : Instr → Bool} (hp : p = .dt ∨ p = .st)
    (hbad : ∀ s i, writes s i p → bad i = true) (h : completedSteps bad k t u) : u.obs p = t.obs p - k := by
  induction k generalizing t with
  | zero =>
    obtain rfl : t = u := h
    rfl
  | succ k ih =>
    obtain ⟨t', hstep, hl, hgood, hrest⟩ := h
    have hnot : ∀ i, decodeWord t.fetchWord = .ok i → ¬ writes t.advance i p := fun i hi hw =>
      absurd ((hgood i hi).symm.trans (hbad _ i hw)) (by decide)
    rw [ih hrest, step_obs_timer hp hstep hl hnot]
    omega

/-! ### No instruction reads ST (R196)

With another ST the execute phase is the same but for ST: each meaning commutes with `setSt`. -/

theorem State.storeRegs_setSt (s : State) (x : Reg) (b : Byte) : (s.setSt b).storeRegs x = (s.storeRegs x).setSt b := by
  unfold State.storeRegs
  exact List.foldl_hom (fun t : State => t.setSt b) fun _ _ => rfl

theorem State.loadRegs_setSt (s : State) (x : Reg) (b : Byte) : (s.setSt b).loadRegs x = (s.loadRegs x).setSt b := by
  unfold State.loadRegs
  exact List.foldl_hom (fun t : State => t.setSt b) fun _ _ => rfl

/-- With another ST an execute phase leaves the same state but for ST. -/
theorem exec_setSt (b : Byte) (h : exec i s = .next t) : ∃ c, exec i (s.setSt b) = .next (t.setSt c) := by
  cases i with
  | ret =>
    obtain ⟨hsp, rfl⟩ | ⟨hpos, rfl⟩ := exec_ret_cases h
    · exact ⟨b, exec_ret_of_empty (s := s.setSt b) hsp⟩
    · exact ⟨b, exec_ret_of_pos (s := s.setSt b) hpos⟩
  | call nnn =>
    obtain ⟨hsp, rfl⟩ | ⟨hlt, rfl⟩ := exec_call_cases h
    · exact ⟨b, exec_call_of_full (s := s.setSt b) hsp⟩
    · exact ⟨b, exec_call_of_lt (s := s.setSt b) hlt⟩
  | skp x =>
    obtain ⟨hx, rfl⟩ | ⟨k, hk, rfl⟩ := exec_skp_cases h
    · exact ⟨b, exec_skp_of_gt (s := s.setSt b) hx⟩
    · exact ⟨b, exec_skp_of_key (s := s.setSt b) hk⟩
  | sknp x =>
    obtain ⟨hx, rfl⟩ | ⟨k, hk, rfl⟩ := exec_sknp_cases h
    · exact ⟨b, exec_sknp_of_gt (s := s.setSt b) hx⟩
    · exact ⟨b, exec_sknp_of_key (s := s.setSt b) hk⟩
  | ldVxK x =>
    obtain ⟨hk, rfl⟩ | ⟨k, hk, rfl⟩ := exec_ldVxK_cases h
    · exact ⟨b, exec_ldVxK_of_none (s := s.setSt b) hk⟩
    · exact ⟨b, exec_ldVxK_of_some (s := s.setSt b) hk⟩
  | ldMiVx x => exact ⟨b, Host.Outcome.next.inj h ▸ congrArg _ (s.storeRegs_setSt x b)⟩
  | ldVxMi x => exact ⟨b, Host.Outcome.next.inj h ▸ congrArg _ (s.loadRegs_setSt x b)⟩
  | ldStVx x => exact ⟨s.getV x, Host.Outcome.next.inj h ▸ rfl⟩
  | _ => exact ⟨b, Host.Outcome.next.inj h ▸ rfl⟩
end

/-- Settles O49: the step that sets the timer is its first tick, and each further completed step is one more. -/
theorem timerCountsDown : Obligations.TimerCountsDown := by
  intro s t u x k h
  refine ⟨fun hi hsteps => ?_, fun hi hsteps => ?_⟩
  · obtain rfl := Host.Outcome.next.inj (h.symm.trans hi.step_ldDtVx)
    have hset := timerTick_toNat (s.getV x)
    have hcount := hsteps.obs_timer (p := .dt) (.inl rfl) fun s i hw => by
      obtain ⟨y, rfl⟩ := eq_ldDtVx_of_writes_dt hw
      rfl
    exact hcount.trans (congrArg (· - k) hset)
  · obtain rfl := Host.Outcome.next.inj (h.symm.trans hi.step_ldStVx)
    have hset := timerTick_toNat (s.getV x)
    have hcount := hsteps.obs_timer (p := .st) (.inr rfl) fun s i hw => by
      obtain ⟨y, rfl⟩ := eq_ldStVx_of_writes_st hw
      rfl
    exact hcount.trans (congrArg (· - k) hset)

/-- Settles O47: `Fx0A` has the two outcomes of the scan, the highest pressed key or none. -/
theorem waitForKey : Obligations.WaitForKey := by
  refine fun s x => ⟨fun k hk hmax => ?_, fun hnone => ?_⟩
  · have hexec := exec_ldVxK_of_some (x := x) (State.lastPressed_of_highest hk hmax)
    refine ⟨_, hexec, ?_, s.frame_setV _ _⟩
    rw [State.getV_setV_same, BitVec.toNat_ofNat]
    omega
  · exact ⟨_, exec_ldVxK_of_none (State.lastPressed_of_no_key hnone), rfl, s.frame_setPc _⟩

/-- Settles O48: each transfer writes one part, the step after it ends with the tick, and every meaning commutes with
another ST. -/
theorem timerTransfers : Obligations.TimerTransfers := fun s x =>
  ⟨⟨_, rfl, s.getV_setV_same x s.dt, s.frame_setV _ _⟩, ⟨_, rfl, rfl, s.frame_setDt _⟩,
    ⟨_, rfl, rfl, s.frame_setSt _⟩,
    fun hi => ⟨_, hi.step_ldDtVx, timerTick_toNat _⟩, fun hi => ⟨_, hi.step_ldStVx, timerTick_toNat _⟩,
    fun hi => ⟨_, hi.step_ldVxDt, s.advance.getV_setV_same x s.dt, timerTick_toNat _⟩,
    fun _ b t h =>
      have ⟨c, hc⟩ := exec_setSt b h
      ⟨t.setSt c, hc, t.frame_setSt c⟩⟩

/-- Settles O46: the value of `V[x]` is the index of a key, or there is none and the raise takes its place. -/
theorem keySkips : Obligations.KeySkips := fun s _ =>
  ⟨fun _ hk =>
      ⟨⟨_, exec_skp_of_key hk, s.skipIf_pc _, s.frame_skipIf _⟩,
        ⟨_, exec_sknp_of_key hk, s.skipIf_not_pc _, s.frame_skipIf _⟩⟩,
    fun hx =>
      ⟨⟨_, exec_skp_of_gt hx, rfl, rfl, rfl, rfl, s.frame_raiseInstr _ _⟩,
        ⟨_, exec_sknp_of_gt hx, rfl, rfl, rfl, rfl, s.frame_raiseInstr _ _⟩⟩⟩

end Sys2Proof.Machine
end

section
/-! PROOF. Faults: when a step raises and what the raise leaves, and that a latch that holds a fault stays as it is
(spec/60_exceptions.md R210 to R217, R227). -/

namespace Sys2Proof.Machine

section
variable {s t u : State} {i : Instr} {c : FaultCause} {font : Font}

/-! ### The step that raises (R210, R213) -/

/-- The step from `s` meets the condition of the cause `c`: the fetch guard's, or that of the instruction it executes
(R210). -/
def State.meets (s : State) (c : FaultCause) : Prop :=
  (0x0FFF ≤ s.pc.toNat ∧ c = .addressOverflow) ∨ ∃ i, s.executes i ∧ raises s i c

/-- The `FAULT_OP` a raise from `s` records: the word at PC, or 0 when the fetch guard lets nothing be fetched (R213). -/
def State.raiseOp (s : State) : Word := if 0x0FFF ≤ s.pc.toNat then 0 else s.fetchWord

theorem State.executes.raiseOp_eq (h : s.executes i) : s.raiseOp = encode i := by
  obtain ⟨-, hpc, hi⟩ := h
  rw [State.raiseOp, if_neg (by omega), (encode_of_decodeWord hi).1]

/-- In the step a raise of the execute phase undoes the advance (R213). -/
theorem State.raiseInstr_advance (s : State) (c : FaultCause) (op : Word) :
    s.advance.raiseInstr c op = s.raise c s.pc op := by
  rw [State.raiseInstr, State.pc0_advance]
  rfl

theorem raises.ne_none (h : raises s i c) : c ≠ .none := by
  obtain ⟨-, -, rfl⟩ | ⟨-, -, rfl⟩ | ⟨x, -, -, rfl⟩ := h <;> decide

theorem State.meets.ne_none (h : s.meets c) : c ≠ .none := by
  obtain ⟨-, rfl⟩ | ⟨i, -, hi⟩ := h
  · decide
  · exact hi.ne_none

/-- An instruction that meets the condition of a cause raises it. -/
theorem raises.exec_eq (h : raises s i c) : exec i s = .next (s.raiseInstr c (encode i)) := by
  obtain ⟨⟨nnn, rfl⟩, hsp, rfl⟩ | ⟨rfl, hsp, rfl⟩ | ⟨x, rfl | rfl, hx, rfl⟩ := h
  · exact exec_call_of_full hsp
  · exact exec_ret_of_empty hsp
  · exact exec_skp_of_gt hx
  · exact exec_sknp_of_gt hx

/-- A step that meets the condition of a cause is the raise of it: the latch at `pc0`, and no tick (R213). -/
theorem State.meets.step_eq (hl : s.latched = false) (h : s.meets c) :
    step s = .next (s.raise c s.pc s.raiseOp) := by
  obtain ⟨hpc, rfl⟩ | ⟨i, hi, hc⟩ := h
  · rw [step_of_pcOverflows hl hpc, State.raiseOp, if_pos hpc]
  · have hexec : exec i s.advance = .next (s.raise c s.pc s.raiseOp) := by
      rw [raises.exec_eq (s := s.advance) hc, s.raiseInstr_advance, hi.raiseOp_eq]
    rw [hi.step_next hexec, State.postExecute_of_latched (State.latched_iff.mpr hc.ne_none)]

/-- From `s` to `t` no field of the latch changed (R29). -/
def SameLatch (s t : State) : Prop := t.fault = s.fault ∧ t.faultPc = s.faultPc ∧ t.faultOp = s.faultOp

theorem SameLatch.trans (h : SameLatch s t) (h' : SameLatch t u) : SameLatch s u := by
  obtain ⟨hfault, hfaultPc, hfaultOp⟩ := h
  obtain ⟨hfault', hfaultPc', hfaultOp'⟩ := h'
  exact ⟨hfault'.trans hfault, hfaultPc'.trans hfaultPc, hfaultOp'.trans hfaultOp⟩

theorem State.postExecute_sameLatch (s : State) : SameLatch s s.postExecute :=
  have hframe := s.frame_postExecute
  ⟨hframe.fault_eq (by simp), hframe.faultPc_eq (by simp), hframe.faultOp_eq (by simp)⟩

/-- A step meets the condition of a cause and is the raise of it, or leaves the latch as it is. -/
theorem step_raises_or_keeps_latch (hl : s.latched = false) (h : step s = .next t) :
    (∃ c, s.meets c ∧ t = s.raise c s.pc s.raiseOp) ∨ SameLatch s t := by
  have hraise : ∀ c, s.meets c → t = s.raise c s.pc s.raiseOp := fun c hc =>
    Host.Outcome.next.inj (h.symm.trans (hc.step_eq hl))
  obtain ⟨-, rfl⟩ | ⟨-, hp, -⟩ | ⟨-, hp, i, u, hi, hu, rfl⟩ | ⟨-, -, e, -, rfl⟩ := step_next_cases h
  · exact .inr ⟨rfl, rfl, rfl⟩
  · have hc : s.meets .addressOverflow := .inl ⟨State.pcOverflows_iff.mp hp, rfl⟩
    exact .inl ⟨_, hc, hraise _ hc⟩
  · obtain ⟨c, hraises, -⟩ | hkept := exec_raises_or_keeps_latch hu
    · have hc : s.meets c := .inr ⟨i, ⟨hl, State.pc_le_of_not_pcOverflows hp, hi⟩, hraises⟩
      exact .inl ⟨c, hc, hraise c hc⟩
    · exact .inr (SameLatch.trans (s := s.advance) hkept u.postExecute_sameLatch)
  · exact .inr s.advance.postExecute_sameLatch

/-! ### The condition of each cause (R215, R216, R217, R227) -/

/-- The step leaves a cause's code in `FAULT` exactly when it meets the cause's condition. -/
theorem step_obs_fault_eq_iff (hl : s.latched = false) (h : step s = .next t) (hc : c ≠ .none) :
    t.obs .fault = c.code ↔ s.meets c := by
  refine FaultCause.code_inj.trans ⟨?_, fun hmeets => ?_⟩
  · rintro rfl
    obtain ⟨c, hmeets, rfl⟩ | ⟨hfault, -, -⟩ := step_raises_or_keeps_latch hl h
    · exact hmeets
    · exact absurd (hfault.trans (State.not_latched_iff.mp hl)) hc
  · rw [Host.Outcome.next.inj (h.symm.trans (hmeets.step_eq hl)), State.raise_fault]

theorem State.meets_addressOverflow_iff : s.meets .addressOverflow ↔ 0x0FFF ≤ s.pc.toNat := by
  simp [State.meets, raises]

theorem State.meets_stackOverflow_iff : s.meets .stackOverflow ↔ ∃ nnn, s.executes (.call nnn) ∧ s.sp.val = 16 := by
  simp [State.meets, raises]

theorem State.meets_stackUnderflow_iff : s.meets .stackUnderflow ↔ s.executes .ret ∧ s.sp.val = 0 := by
  simp [State.meets, raises]

theorem State.meets_keyIndexRange_iff :
    s.meets .keyIndexRange ↔ ∃ x, (s.executes (.skp x) ∨ s.executes (.sknp x)) ∧ 15 < (s.getV x).toNat := by
  constructor
  · rintro (⟨-, ⟨⟩⟩ | ⟨i, hi, ⟨-, -, ⟨⟩⟩ | ⟨-, -, ⟨⟩⟩ | ⟨x, rfl | rfl, hx, -⟩⟩)
    · exact ⟨x, .inl hi, hx⟩
    · exact ⟨x, .inr hi, hx⟩
  · rintro ⟨x, hi | hi, hx⟩
    · exact .inr ⟨_, hi, .inr (.inr ⟨x, .inl rfl, hx, rfl⟩)⟩
    · exact .inr ⟨_, hi, .inr (.inr ⟨x, .inr rfl, hx, rfl⟩)⟩

/-! ### A latch that holds a fault (R214) -/

theorem step_of_latched (hl : s.latched = true) : step s = .next s := if_pos hl

/-- The parts the host's ports write (R40, R41). -/
def hostPortParts (p : Part) : Prop := (∃ k, p = .key k) ∨ p = .dirty

theorem hostLoad_of_latched (hl : s.latched = true) (bytes : List Byte) : hostLoad font bytes s = .notDefined := by
  have hnot : ¬ s.justReset font = true := fun hj =>
    State.latched_iff.mp hl (congrArg State.fault (of_decide_eq_true hj))
  rw [hostLoad, if_pos hnot]

/-- On a latched core only the host's ports and its `reset` have an effect (R214). -/
theorem perform_frame_of_latched (hl : s.latched = true) {cmd : Command} (hcmd : cmd ≠ .reset)
    (h : perform font cmd s = .done t) : Frame hostPortParts s t := by
  cases cmd with
  | reset => exact absurd rfl hcmd
  | load bytes => exact absurd ((hostLoad_of_latched hl bytes).symm.trans h) (by simp)
  | keyDown k => exact CommandOutcome.done.inj h ▸ (s.frame_setKey k true).widen (.inl ⟨k, rfl⟩)
  | keyUp k => exact CommandOutcome.done.inj h ▸ (s.frame_setKey k false).widen (.inl ⟨k, rfl⟩)
  | clearDirty => exact CommandOutcome.done.inj h ▸ (frame_clearDirty s).widen (.inr rfl)
  | step =>
    rw [perform, step_of_latched hl] at h
    exact CommandOutcome.done.inj h ▸ Frame.refl _ s

/-- The latch is no part of what the ports write. -/
theorem latched_of_frame_hostPortParts (hl : s.latched = true) (h : Frame hostPortParts s t) : t.latched = true := by
  rwa [State.latched, h.fault_eq (by simp [hostPortParts])]

/-- A sequence of commands that goes to its end performs the first one, or fails its `load` without an effect, and goes
on with the others. -/
theorem performAll_cons_cases {cmd : Command} {cs : List Command} (h : performAll font (cmd :: cs) s = some t) :
    (∃ u, perform font cmd s = .done u ∧ performAll font cs u = some t) ∨
      (perform font cmd s = .romTooLarge ∧ performAll font cs s = some t) := by
  rw [performAll] at h
  cases hcmd : perform font cmd s with
  | done u => exact .inl ⟨u, rfl, by rwa [hcmd] at h⟩
  | romTooLarge => exact .inr ⟨rfl, by rwa [hcmd] at h⟩
  | notDefined => simp [hcmd] at h

/-- Each command leaves the latch set, so the next one too finds a latched core. -/
theorem performAll_frame_of_latched {cs : List Command} (hl : s.latched = true) (hcs : .reset ∉ cs)
    (h : performAll font cs s = some t) : Frame hostPortParts s t := by
  induction cs generalizing s with
  | nil => exact Option.some.inj h ▸ Frame.refl _ s
  | cons cmd cs ih =>
    obtain ⟨hcmd, hrest⟩ := not_or.mp (List.mem_cons.not.mp hcs)
    obtain ⟨u, hu, ht⟩ | ⟨-, ht⟩ := performAll_cons_cases h
    · have hframe := perform_frame_of_latched hl (Ne.symm hcmd) hu
      exact hframe.trans (ih (latched_of_frame_hostPortParts hl hframe) hrest ht)
    · exact ih hl hrest ht
end

/-- Settles O25: the step of a latched core is no change, and by induction no sequence of commands without `reset` leaves
the frame of the host's ports. -/
theorem latchIsSticky : Obligations.LatchIsSticky := fun _ s hl =>
  have hstep := step_of_latched hl
  ⟨hstep, (stepResult_eq hstep).trans (congrArg some (resultOf_eq_faulted_iff.mpr hl)), rfl,
    fun k => ⟨⟨_, rfl, s.keyPressed_setKey_same k true⟩, ⟨_, rfl, s.keyPressed_setKey_same k false⟩⟩, ⟨_, rfl, rfl⟩,
    fun _ _ => performAll_frame_of_latched hl⟩

/-- Settles O12: a step that does not leave the latch as it is, is a raise at `pc0`. -/
theorem raisedFaultIsPrecise : Obligations.RaisedFaultIsPrecise := by
  intro s t hl h ht
  have hresult := (stepResult_eq h).trans (congrArg some (resultOf_eq_faulted_iff.mpr ht))
  obtain ⟨c, -, rfl⟩ | ⟨hfault, -, -⟩ := step_raises_or_keeps_latch hl h
  · exact ⟨s.frame_raise_at_pc c _, rfl, rfl, hresult⟩
  · exact absurd (hfault.trans (State.not_latched_iff.mp hl)) (State.latched_iff.mp ht)

/-- Settles O13: a code is left exactly under its condition, and the latch's other fields are those of the raise. -/
theorem faultConditions : Obligations.FaultConditions := by
  intro s t hl h
  have hcode : ∀ c : FaultCause, c ≠ .none → (t.obs .fault = c.code ↔ s.meets c) := fun _ => step_obs_fault_eq_iff hl h
  have hoverflow : t.obs .fault = 1 ↔ 0x0FFF ≤ s.pc.toNat :=
    (hcode .addressOverflow (by decide)).trans State.meets_addressOverflow_iff
  refine ⟨hoverflow, (hcode .stackOverflow (by decide)).trans State.meets_stackOverflow_iff,
    (hcode .stackUnderflow (by decide)).trans State.meets_stackUnderflow_iff,
    (hcode .keyIndexRange (by decide)).trans State.meets_keyIndexRange_iff, ?_⟩
  simp only [hoverflow]
  obtain ⟨c, hmeets, rfl⟩ | ⟨hfault, hfaultPc, hfaultOp⟩ := step_raises_or_keeps_latch hl h
  · exact ⟨fun h0 => absurd ((FaultCause.code_inj (d := .none)).mp h0) hmeets.ne_none, fun _ => ⟨rfl, rfl⟩⟩
  · have h0 : t.obs .fault = 0 := congrArg FaultCause.code (hfault.trans (State.not_latched_iff.mp hl))
    exact ⟨fun _ => ⟨hfaultPc, hfaultOp⟩, fun hne => absurd h0 hne⟩

/-- Settles O11: the jump completes with PC at 0x0FFF, where the fetch guard of the next step raises. -/
theorem jumpToTopFaultsOneStepLater : Obligations.JumpToTopFaultsOneStepLater := by
  intro s hi
  have ⟨hl, _, hdec⟩ := hi
  have hstep : step s = .next (s.advance.setPc (zextAddr 0xFFF)).tick := hi.step_completes rfl rfl
  have hknown : isUnknownOpcode s.fetchWord = false := by rw [isUnknownOpcode, hdec]
  exact ⟨_, _, hstep, hl, rfl, (stepResult_eq hstep).trans (congrArg some (resultOf_eq_ok_iff.mpr ⟨hl, hknown⟩)),
    step_of_pcOverflows hl (Nat.le_refl 0x0FFF), rfl, rfl⟩

end Sys2Proof.Machine
end

section
/-! PROOF. The host's commands: what `reset` and `load` do, what key events leave unchanged, the launch state and the
invariant (spec/70_reset_and_hazards.md R240, R244, R245, R247). -/

namespace Sys2Proof.Machine

section
variable {s t : State} {font : Font} {bytes : List Byte}

/-! ### `reset` (R240) -/

/-- From the reset state only the model's counter of draws can differ. -/
theorem frame_hostReset (font : Font) (s : State) : Frame (· = .draws) (State.resetWith font) (hostReset font s) := by
  intro p hp
  cases p with
  | draws => exact absurd rfl hp
  | _ => rfl

/-- The counter of draws is no part of the invariant. -/
theorem hostReset_inv (font : Font) (s : State) : (hostReset font s).inv := State.resetWith_inv font

/-! ### `load` (R245) -/

theorem Memory.read_writeList_add {a i : Nat} {m : Memory} (hm : m.wf = true)
    (ha : a + bytes.length ≤ Config.memSize) (hi : i < bytes.length) : (m.writeList a bytes).read (a + i) = bytes[i] := by
  rw [Memory.read_writeList bytes hm ha, dif_pos ⟨Nat.le_add_right a i, by omega⟩]
  simp only [Nat.add_sub_cancel_left]

theorem Memory.read_writeList_of_outside {a a' : Nat} {m : Memory} (hm : m.wf = true)
    (ha : a + bytes.length ≤ Config.memSize) (ha' : ¬ (a ≤ a' ∧ a' < a + bytes.length)) :
    (m.writeList a bytes).read a' = m.read a' := by
  rw [Memory.read_writeList bytes hm ha, dif_neg (by omega)]

/-- `MEM[0x200 + i] <- bytes[i]`: the record update of `hostLoad`, named so that it has rules of its own. -/
def State.loadRom (s : State) (bytes : List Byte) : State := { s with mem := s.mem.writeList Config.progBase bytes }

/-- The bytes of memory that a ROM of `n` bytes fills. -/
def romParts (n : Nat) (p : Part) : Prop := ∃ a : Addr, p = .mem a ∧ 0x200 ≤ a.toNat ∧ a.toNat < 0x200 + n

/-- A ROM of at most `ROM_MAX` bytes ends at the top of memory or below it (R6). -/
theorem rom_fits (hlen : bytes.length ≤ 3584) : Config.progBase + bytes.length ≤ Config.memSize :=
  Nat.add_le_add_left hlen Config.progBase

/-- In a state that is a reset's but for keys the ROM's length alone decides. -/
theorem hostLoad_of_justReset (hj : s.justReset font = true) (bytes : List Byte) :
    hostLoad font bytes s = if 3584 < bytes.length then .romTooLarge else .done (s.loadRom bytes) :=
  if_neg (not_not_intro hj)

/-- A `load` that is performed had a ROM that fits. -/
theorem hostLoad_eq_done (h : hostLoad font bytes s = .done t) : bytes.length ≤ 3584 ∧ t = s.loadRom bytes := by
  by_cases hj : s.justReset font = true
  · rw [hostLoad_of_justReset hj] at h
    split at h
    · exact nomatch h
    · next hlen => exact ⟨Nat.le_of_not_lt hlen, (CommandOutcome.done.inj h).symm⟩
  · rw [hostLoad, if_pos hj] at h
    exact nomatch h

/-- The condition of `load` includes that memory is canonical. -/
theorem State.wf_of_justReset (h : s.justReset font = true) : s.mem.wf = true := by
  have hmem : s.mem = Memory.withFont font := congrArg State.mem (of_decide_eq_true h)
  exact hmem ▸ Memory.wf_withFont font

theorem State.readByte_loadRom_of_lt (hm : s.mem.wf = true) (hlen : bytes.length ≤ 3584) (i : Nat)
    (h : i < bytes.length) : (s.loadRom bytes).readByte (BitVec.ofNat 12 (0x200 + i)) = bytes[i] := by
  have ha : (BitVec.ofNat 12 (0x200 + i)).toNat = Config.progBase + i := Nat.mod_eq_of_lt (by omega)
  rw [State.readByte, ha]
  exact Memory.read_writeList_add hm (rom_fits hlen) h

theorem State.frame_loadRom (hm : s.mem.wf = true) (hlen : bytes.length ≤ 3584) :
    Frame (romParts bytes.length) s (s.loadRom bytes) := by
  intro p hp
  cases p with
  | mem a =>
    have ha : ¬ (Config.progBase ≤ a.toNat ∧ a.toNat < Config.progBase + bytes.length) := fun h => hp ⟨a, rfl, h⟩
    exact State.obs_mem_eq_iff.mpr (Memory.read_writeList_of_outside hm (rom_fits hlen) ha)
  | _ => rfl

/-- A ROM that fits keeps memory canonical, and nothing else of the invariant speaks of memory. -/
theorem State.inv.loadRom (hs : s.inv) (hlen : bytes.length ≤ 3584) : (s.loadRom bytes).inv := by
  obtain ⟨hm, hpc, hstack, hlatch⟩ := hs
  exact ⟨Memory.wf_writeList bytes (rom_fits hlen) hm, hpc, hstack, hlatch⟩

/-! ### Sequences of commands (R40, R244) -/

/-- A command that is performed gives the state in which the others follow. -/
theorem performAll_cons_of_done {cmd : Command} (h : perform font cmd s = .done t) (cs : List Command) :
    performAll font (cmd :: cs) s = performAll font cs t := by
  rw [performAll, h]

/-- Key events are performed in every state, and change keys only. -/
theorem performAll_keyEvents {events : List Command} (hev : ∀ c ∈ events, ∃ k, c = .keyDown k ∨ c = .keyUp k)
    (font : Font) (s : State) :
    ∃ t, performAll font events s = some t ∧ Frame (fun p => ∃ k, p = .key k) s t := by
  induction events generalizing s with
  | nil => exact ⟨s, rfl, Frame.refl _ s⟩
  | cons c cs ih =>
    obtain ⟨⟨k, hk⟩, hcs⟩ := List.forall_mem_cons.mp hev
    have hfirst : ∃ b, perform font c s = .done (s.setKey k b) := by
      obtain rfl | rfl := hk
      · exact ⟨true, rfl⟩
      · exact ⟨false, rfl⟩
    obtain ⟨b, hb⟩ := hfirst
    obtain ⟨t, ht, hframe⟩ := ih hcs (s.setKey k b)
    exact ⟨t, (performAll_cons_of_done hb cs).trans ht, ((s.frame_setKey k b).widen ⟨k, rfl⟩).trans hframe⟩

/-! ### `step` as a command (R38) -/

theorem perform_step_eq_done_iff : perform font .step s = .done t ↔ step s = .next t := by
  rw [perform]
  cases step s <;> simp
end

/-- Settles O18: `reset` establishes the invariant, `step` keeps it by O16, a `load` that is performed has a ROM that fits,
and the ports write no part the invariant speaks of. -/
theorem commandsKeepInvariant : Obligations.CommandsKeepInvariant := by
  intro font c s t hs h
  cases c with
  | reset => exact CommandOutcome.done.inj h ▸ hostReset_inv font s
  | load bytes =>
    obtain ⟨hlen, rfl⟩ := hostLoad_eq_done h
    exact hs.loadRom hlen
  | keyDown k => exact CommandOutcome.done.inj h ▸ hs
  | keyUp k => exact CommandOutcome.done.inj h ▸ hs
  | clearDirty => exact CommandOutcome.done.inj h ▸ hs
  | step => exact stepKeepsInvariant s t hs (perform_step_eq_done_iff.mp h)

/-- Settles O22: the ROM's length alone decides, and memory after a reset is canonical, so the ROM reads back. -/
theorem loadWritesRom : Obligations.LoadWritesRom := fun _ _ bytes hj =>
  have hm := State.wf_of_justReset hj
  have hload := hostLoad_of_justReset hj bytes
  ⟨fun hlen => hload.trans (if_pos hlen),
    fun hlen => ⟨_, hload.trans (if_neg (Nat.not_lt_of_le hlen)), State.readByte_loadRom_of_lt hm hlen,
      State.frame_loadRom hm hlen⟩⟩

/-- Settles O24: the frames of the reset, of the load and of the key events, composed; no key event touches the ROM. -/
theorem bootGivesLaunchState : Obligations.BootGivesLaunchState := by
  intro font s rom events hlen hev
  have hj := hostReset_justReset font s
  have hm := State.wf_of_justReset hj
  have hreset : perform font .reset s = .done (hostReset font s) := rfl
  have hload : perform font (.load rom) (hostReset font s) = .done ((hostReset font s).loadRom rom) :=
    (hostLoad_of_justReset hj rom).trans (if_neg (Nat.not_lt_of_le hlen))
  obtain ⟨t, ht, hkeys⟩ := performAll_keyEvents hev font ((hostReset font s).loadRom rom)
  refine ⟨t, ?_, fun i hi => ?_, ?_⟩
  · rw [performAll_cons_of_done hreset, performAll_cons_of_done hload, ht]
  · rw [hkeys.readByte_eq (by simp), State.readByte_loadRom_of_lt hm hlen i hi]
  · exact (((frame_hostReset font s).widen (.inr (.inl rfl))).trans
      ((State.frame_loadRom hm hlen).mono fun _ hp => .inr (.inr hp))).trans (hkeys.mono fun _ hp => .inl hp)

/-- Settles O21, from the frame of the reset. -/
theorem hostResetRestoresEverything : Obligations.HostResetRestoresEverything := fun font s =>
  ⟨hostReset font s, rfl, frame_hostReset font s, rfl, rfl⟩

end Sys2Proof.Machine
end
